-- ==== Sys2Proof/Word.lean ====
section
/-! DEFINITION. The word types of the block (00_scope R9), the points and windows its rules speak of,
the three encoded forms of 30_encoding (request, frame, event), and the pin actions of the transport. -/

namespace Sys2Proof

/-- One byte on the wire, in a payload or in font memory. -/
abbrev Byte := BitVec 8

/-- A data word: 16 bits (00_scope R9). -/
abbrev Word16 := BitVec 16

/-- A colour: 16 bits, RGB565, never split (00_scope R9, R14). -/
abbrev Color := BitVec 16

/-- A register address: 8 bits (00_scope R9, 20_memory R71). -/
abbrev RegAddr := BitVec 8

/-- A cell position in exact integers (00_scope R12). -/
structure Point where
  x : Int
  y : Int
deriving DecidableEq, Repr

/-- An addressing window, inclusive corners (00_scope R14): columns `x1..x2`, rows `y1..y2`. -/
structure Window (α : Type) where
  x1 : α
  y1 : α
  x2 : α
  y2 : α
deriving DecidableEq, Repr

/-- The command/data select line (00_scope R14, 44_decoder R250). -/
inductive Mode where
  | cmd
  | data
deriving DecidableEq, Repr

/-- An element of the front end's output stream (30_encoding R115). -/
inductive Event where
  | cmd (r : RegAddr)
  | data (w : Word16)
  | delay (ms : Nat)
  | reset
deriving DecidableEq, Repr

/-- One action of the transport on the pins; the first five decoder inputs of 44_decoder R250. -/
inductive PinAction where
  | selectMode (m : Mode)
  | selectChip (active : Bool)
  | writeBytes (bytes : List Byte)
  | resetPulse (lowThenHigh withDelays : Bool)
  | delay (ms : Nat)
deriving DecidableEq, Repr

/-- An encoded instruction together with the port it stands on.
`request`: the 84-bit word Q and the payload P (30_encoding R100).
`frame`: the 17-bit transaction frame T (30_encoding R110).
`event`: the 2-bit tag (30_encoding R115) and the event's argument.
DESIGN CHOICE: the spec gives the argument no bits, so it stands beside the tag (log 8). -/
inductive PortWord where
  | request (q : BitVec 84) (payload : List Byte)
  | frame (t : BitVec 17)
  | event (tag : BitVec 2) (arg : Nat)
deriving DecidableEq, Repr

end Sys2Proof
end

