-- ==== Sys2Proof/Config.lean ====
section
/-! DEFINITION. The implementation parameters of 00_scope R8, as plain data that State carries as the
arguments of the step (10_state R56), and the one parameter that is a function, FRAME_ENCODING. -/

namespace Sys2Proof

/-- One step of the vendor's init sequence (41_encoder_config R172). -/
inductive InitStep where
  | writeReg (r : RegAddr) (v : Word16)
  | delay (ms : Nat)
deriving DecidableEq, Repr

/-- The colour order (10_state R34). -/
inductive ColorOrder where
  | rgb
  | bgr
deriving DecidableEq, Repr

/-- The three entry-mode fields ENTRY_TABLE gives a rotation (30_encoding R121): vertical increment
direction, horizontal increment direction, addressing mode. -/
structure EntryFields where
  id1 : Bool
  id0 : Bool
  am : Bool
deriving DecidableEq, Repr

/-- The fixed-cell font record (45_text R291). -/
structure FixedFont where
  cellWidth : Nat
  cellHeight : Nat
  firstChar : Byte
  lastChar : Byte
  gap : Nat
  data : List Byte
deriving DecidableEq, Repr

/-- One glyph record of the proportional font (45_text R300). -/
structure GfxGlyph where
  bitmapOffset : Nat
  width : Nat
  height : Nat
  xOffset : Int
  yOffset : Int
  xAdvance : Nat
deriving DecidableEq, Repr

/-- The proportional font record (45_text R300). -/
structure GfxFont where
  bitmap : List Byte
  first : Byte
  last : Byte
  yAdvance : Nat
  glyphs : List GfxGlyph
deriving DecidableEq, Repr

/-- The transport's explicit pin-role record (40_transport R143): which pin is mode select, which is
chip select, which is reset, and which channel carries bytes. No rule reads it (log 25). -/
structure PinRoles where
  modeSelect : Nat
  chipSelect : Nat
  reset : Nat
  channel : Nat
deriving DecidableEq, Repr

/-- RESET_PULSE_TIMING (40_transport R148): low and high durations. No rule reads it (log 25). -/
structure ResetPulseTiming where
  lowMs : Nat
  highMs : Nat
deriving DecidableEq, Repr

/-- The parameters of 00_scope R8 that are data. `entryTable` is ENTRY_TABLE, indexed by rotation. -/
structure Params where
  panelW : Nat
  panelH : Nat
  maxDim : Nat
  fbW : Nat
  fbH : Nat
  regHS : RegAddr
  regHE : RegAddr
  regVS : RegAddr
  regVE : RegAddr
  regAX : RegAddr
  regAY : RegAddr
  regGram : RegAddr
  regEntry : RegAddr
  entryOrdBit : Nat
  entryId1Bit : Nat
  entryId0Bit : Nat
  entryAmBit : Nat
  entryTable : Vector EntryFields 8
  colorOrderReset : ColorOrder
  initSequence : List InitStep
  decoderExtraRegs : List RegAddr
  fixedFont : FixedFont
  gfxFont : GfxFont
  pinRoles : PinRoles
  resetPulseTiming : ResetPulseTiming
deriving DecidableEq, Repr

/-- FRAME_ENCODING (44_decoder R276): the byte encoding of a frame's pixels, OPEN in the spec, so an
uninterpreted constant about which nothing can be proved (log 4). -/
opaque Config.frameEncoding : List Word16 → List Byte

end Sys2Proof
end

