-- ==== Sys2Proof/Syntax.lean ====
section
/-! DEFINITION. The instructions: one constructor for each row of spec/opcode_table.json, its operands
already read by 30_encoding R102 (signed operands as integers, colours and words as 16 bits, a
character as 8 bits, isRgb as a truth value). -/

namespace Sys2Proof

/-- The rows of the opcode table: the 16 requests of 30_encoding R101, the two transaction frames of
R110 and the four events of R115. Fields R101 leaves blank are no operands (R103). -/
inductive Instr where
  /-- op 0x0, 30_encoding R106 -/
  | reserved
  /-- op 0x1, 41_encoder_config R171 -/
  | init (width height rotation : Int)
  /-- op 0x2, 41_encoder_config R180 -/
  | setWindow (x1 y1 x2 y2 : Int)
  /-- op 0x3, 41_encoder_config R185 -/
  | setRotation (rotation : Int)
  /-- op 0x4, 41_encoder_config R190 -/
  | setColorOrder (isRgb : Bool)
  /-- op 0x5, 41_encoder_config R193 -/
  | writeData16 (word : Word16)
  /-- op 0x6, 42_raster_primitives R201 -/
  | drawPixel (x y : Int) (color : Color)
  /-- op 0x7, 42_raster_primitives R206 -/
  | fillRect (x y w h : Int) (color : Color)
  /-- op 0x8, 42_raster_primitives R211 -/
  | drawLine (x0 y0 x1 y1 : Int) (color : Color)
  /-- op 0x9, 42_raster_primitives R215 -/
  | drawRect (x y w h : Int) (color : Color)
  /-- op 0xA, 43_raster_circles R231 -/
  | drawCircle (x y r : Int) (color : Color)
  /-- op 0xB, 43_raster_circles R235 -/
  | fillCircle (x y r : Int) (color : Color)
  /-- op 0xC, 45_text R293 -/
  | drawCharFixed (x y : Int) (ch : Byte) (color : Color) (size : Int)
  /-- op 0xD, 45_text R294 -/
  | drawStringFixed (x y : Int) (color : Color) (size : Int) (payload : List Byte)
  /-- op 0xE, 45_text R302 -/
  | drawCharGfx (x y : Int) (ch : Byte) (color : Color)
  /-- op 0xF, 45_text R303 -/
  | drawStringGfx (x y : Int) (color : Color) (payload : List Byte)
  /-- frame with mode bit 0, 30_encoding R110 -/
  | cmd (reg : RegAddr)
  /-- frame with mode bit 1, 30_encoding R110 -/
  | data (word : Word16)
  /-- event tag 00, 30_encoding R115 -/
  | eventCmd (reg : RegAddr)
  /-- event tag 01, 30_encoding R115 -/
  | eventData (word : Word16)
  /-- event tag 10, 30_encoding R114, R115 -/
  | eventDelay (ms : Nat)
  /-- event tag 11, 30_encoding R114, R115 -/
  | eventReset
deriving DecidableEq, Repr

end Sys2Proof
end

