-- ==== Sys2Proof/WellFormed.lean ====
section
/-! DEFINITION. Which instruction terms an encoding can carry: a signed operand lies in
`-32768..32767` (30_encoding R102) and a payload holds at most 65535 bytes (30_encoding R105). -/

namespace Sys2Proof

/-- A value a 16-bit two's-complement operand field can carry (30_encoding R102). -/
def fitsOperand (v : Int) : Bool :=
  decide (-32768 ≤ v) && decide (v ≤ 32767)

/-- A payload the request port can carry (30_encoding R105). -/
def fitsPayload (payload : List Byte) : Bool :=
  decide (payload.length ≤ 65535)

/-- The check of each constructor's operands. -/
def Instr.wf : Instr → Bool
  | .reserved => true
  | .init width height rotation => fitsOperand width && fitsOperand height && fitsOperand rotation
  | .setWindow x1 y1 x2 y2 => fitsOperand x1 && fitsOperand y1 && fitsOperand x2 && fitsOperand y2
  | .setRotation rotation => fitsOperand rotation
  | .setColorOrder _ => true
  | .writeData16 _ => true
  | .drawPixel x y _ => fitsOperand x && fitsOperand y
  | .fillRect x y w h _ => fitsOperand x && fitsOperand y && fitsOperand w && fitsOperand h
  | .drawLine x0 y0 x1 y1 _ => fitsOperand x0 && fitsOperand y0 && fitsOperand x1 && fitsOperand y1
  | .drawRect x y w h _ => fitsOperand x && fitsOperand y && fitsOperand w && fitsOperand h
  | .drawCircle x y r _ => fitsOperand x && fitsOperand y && fitsOperand r
  | .fillCircle x y r _ => fitsOperand x && fitsOperand y && fitsOperand r
  | .drawCharFixed x y _ _ size => fitsOperand x && fitsOperand y && fitsOperand size
  | .drawStringFixed x y _ size payload =>
      fitsOperand x && fitsOperand y && fitsOperand size && fitsPayload payload
  | .drawCharGfx x y _ _ => fitsOperand x && fitsOperand y
  | .drawStringGfx x y _ payload => fitsOperand x && fitsOperand y && fitsPayload payload
  | .cmd _ => true
  | .data _ => true
  | .eventCmd _ => true
  | .eventData _ => true
  | .eventDelay _ => true
  | .eventReset => true

end Sys2Proof
end

