-- ==== Sys2Proof/Machine/Operands.lean ====
section
/-! DEFINITION. The operand forms: the fields of a request word (30_encoding R100), how each operand is
read from its field (30_encoding R102) and, for the encoder, written into it. -/

namespace Sys2Proof.Machine

/-- `Q[3:0]` (30_encoding R100). -/
def fieldOp (q : BitVec 84) : BitVec 4 := q.extractLsb' 0 4

/-- `Q[19:4]` (30_encoding R100). -/
def fieldA0 (q : BitVec 84) : BitVec 16 := q.extractLsb' 4 16

/-- `Q[35:20]` (30_encoding R100). -/
def fieldA1 (q : BitVec 84) : BitVec 16 := q.extractLsb' 20 16

/-- `Q[51:36]` (30_encoding R100). -/
def fieldA2 (q : BitVec 84) : BitVec 16 := q.extractLsb' 36 16

/-- `Q[67:52]` (30_encoding R100). -/
def fieldA3 (q : BitVec 84) : BitVec 16 := q.extractLsb' 52 16

/-- `Q[83:68]` (30_encoding R100). -/
def fieldA4 (q : BitVec 84) : BitVec 16 := q.extractLsb' 68 16

/-- The request word of its six fields, `a4` in the high bits (30_encoding R100). -/
def requestWord (op : BitVec 4) (a0 a1 a2 a3 a4 : BitVec 16) : BitVec 84 :=
  a4 ++ a3 ++ a2 ++ a1 ++ a0 ++ op

/-- `sext_16`: coordinates, sizes, radii, extents and rotation (30_encoding R102). -/
def readSigned (a : BitVec 16) : Int := a.toInt

/-- `zext_16`: colours and data words, as written (30_encoding R102). -/
def readWord (a : BitVec 16) : Word16 := a

/-- `a != 0`: isRgb (30_encoding R102). -/
def readFlag (a : BitVec 16) : Bool := a != 0#16

/-- `a[7:0]`: a character code; `a[15:8]` is ignored (30_encoding R102). -/
def readChar (a : BitVec 16) : Byte := a.extractLsb' 0 8

/-- The field that carries a signed operand. -/
def writeSigned (v : Int) : BitVec 16 := BitVec.ofInt 16 v

/-- The field that carries a truth value; DESIGN CHOICE: true is written as 1 (log 23). -/
def writeFlag (b : Bool) : BitVec 16 := if b then 1#16 else 0#16

/-- The field that carries a character code, its high byte zero (30_encoding R103, log 23). -/
def writeChar (c : Byte) : BitVec 16 := c.setWidth 16

/-- `zext_16` of a coordinate that the front end puts on the wire (00_scope R12). -/
def coordWord (v : Int) : Word16 := BitVec.ofInt 16 v

/-! The three parts of a colour (00_scope R14, UNVERIFIED, log 3). No rule splits a colour. -/

/-- Red, bits 15..11. -/
def redOf (c : Color) : BitVec 5 := c.extractLsb' 11 5

/-- Green, bits 10..5. -/
def greenOf (c : Color) : BitVec 6 := c.extractLsb' 5 6

/-- Blue, bits 4..0. -/
def blueOf (c : Color) : BitVec 5 := c.extractLsb' 0 5

end Sys2Proof.Machine
end

