-- ==== Sys2Proof/Decode.lean ====
section
/-! DEFINITION. The decoder of the three encoded forms (30_encoding R100 to R115), total, rejecting by
name, and after it the encoder. -/

namespace Sys2Proof

/-- Why a port word is no instruction. -/
inductive DecodeError where
  /-- A frame with `mode = 0` and `T[15:8] != 0` is not a transaction (30_encoding R110). -/
  | commandFrameHighByte (t : BitVec 17)
  /-- A string request's payload is over 65535 bytes (30_encoding R105). -/
  | payloadTooLong (length : Nat)
  /-- An event's argument does not fit its field (30_encoding R115, log 8). -/
  | eventArgument (tag : BitVec 2) (arg : Nat)
deriving DecidableEq, Repr

/-- A request is decoded by `op` alone (30_encoding R101, R104); blank fields are ignored (R103), and
so is the payload of every opcode but the two string ones (R105). -/
def decodeRequest (q : BitVec 84) (payload : List Byte) : Except DecodeError Instr :=
  let s0 := Machine.readSigned (Machine.fieldA0 q)
  let s1 := Machine.readSigned (Machine.fieldA1 q)
  let s2 := Machine.readSigned (Machine.fieldA2 q)
  let s3 := Machine.readSigned (Machine.fieldA3 q)
  let s4 := Machine.readSigned (Machine.fieldA4 q)
  let w0 := Machine.readWord (Machine.fieldA0 q)
  let w2 := Machine.readWord (Machine.fieldA2 q)
  let w3 := Machine.readWord (Machine.fieldA3 q)
  let w4 := Machine.readWord (Machine.fieldA4 q)
  match (Machine.fieldOp q).toNat with
  | 0x0 => .ok .reserved
  | 0x1 => .ok (.init s0 s1 s2)
  | 0x2 => .ok (.setWindow s0 s1 s2 s3)
  | 0x3 => .ok (.setRotation s0)
  | 0x4 => .ok (.setColorOrder (Machine.readFlag (Machine.fieldA0 q)))
  | 0x5 => .ok (.writeData16 w0)
  | 0x6 => .ok (.drawPixel s0 s1 w2)
  | 0x7 => .ok (.fillRect s0 s1 s2 s3 w4)
  | 0x8 => .ok (.drawLine s0 s1 s2 s3 w4)
  | 0x9 => .ok (.drawRect s0 s1 s2 s3 w4)
  | 0xA => .ok (.drawCircle s0 s1 s2 w3)
  | 0xB => .ok (.fillCircle s0 s1 s2 w3)
  | 0xC => .ok (.drawCharFixed s0 s1 (Machine.readChar (Machine.fieldA2 q)) w3 s4)
  | 0xD =>
      if fitsPayload payload then .ok (.drawStringFixed s0 s1 w2 s3 payload)
      else .error (.payloadTooLong payload.length)
  | 0xE => .ok (.drawCharGfx s0 s1 (Machine.readChar (Machine.fieldA2 q)) w3)
  | _ =>  -- 0xF, the last value of four bits
      if fitsPayload payload then .ok (.drawStringGfx s0 s1 w2 payload)
      else .error (.payloadTooLong payload.length)

/-- A frame: bit 16 is the mode; a command frame's bits 15..8 are zero (30_encoding R110). -/
def decodeFrame (t : BitVec 17) : Except DecodeError Instr :=
  if t.getLsbD 16 then .ok (.data (t.extractLsb' 0 16))
  else if t.extractLsb' 8 8 = 0#8 then .ok (.cmd (t.extractLsb' 0 8))
  else .error (.commandFrameHighByte t)

/-- An event by its tag (30_encoding R115). -/
def decodeEvent (tag : BitVec 2) (arg : Nat) : Except DecodeError Instr :=
  match tag.toNat with
  | 0 => if arg < 256 then .ok (.eventCmd (BitVec.ofNat 8 arg)) else .error (.eventArgument tag arg)
  | 1 => if arg < 65536 then .ok (.eventData (BitVec.ofNat 16 arg)) else .error (.eventArgument tag arg)
  | 2 => .ok (.eventDelay arg)
  | _ => if arg = 0 then .ok .eventReset else .error (.eventArgument tag arg)

/-- The decoder: the port says which form the bits have (30_encoding R104, R110, R115). -/
def decode : PortWord → Except DecodeError Instr
  | .request q payload => decodeRequest q payload
  | .frame t => decodeFrame t
  | .event tag arg => decodeEvent tag arg

/-- The port word of a table row's bits: the opcode table numbers three forms from bit 0 and nothing in
the bits tells them apart, so the row's width does. DESIGN CHOICE (log 12): 17 to 24 bits are a frame;
up to 8 bits whose value is below 4 are an event tag; anything else is a request. -/
def portWordOf (nbits w : Nat) : PortWord :=
  if nbits ≤ 3 || (nbits ≤ 8 && w < 4) then .event (BitVec.ofNat 2 w) (w / 4)
  else if 17 ≤ nbits && nbits ≤ 24 then .frame (BitVec.ofNat 17 w)
  else .request (BitVec.ofNat 84 w) []

/-- The instruction the decoder reads from a table row's bits. -/
def decodeTableWord (nbits w : Nat) : Option Instr :=
  match decode (portWordOf nbits w) with
  | .ok i => some i
  | .error _ => none

/-- The encoder: the port word of an instruction, blank fields zero (30_encoding R101, R103, R110,
R115). -/
def encode : Instr → PortWord
  | .reserved => .request (Machine.requestWord 0x0 0 0 0 0 0) []
  | .init width height rotation =>
      .request (Machine.requestWord 0x1 (Machine.writeSigned width) (Machine.writeSigned height)
        (Machine.writeSigned rotation) 0 0) []
  | .setWindow x1 y1 x2 y2 =>
      .request (Machine.requestWord 0x2 (Machine.writeSigned x1) (Machine.writeSigned y1)
        (Machine.writeSigned x2) (Machine.writeSigned y2) 0) []
  | .setRotation rotation => .request (Machine.requestWord 0x3 (Machine.writeSigned rotation) 0 0 0 0) []
  | .setColorOrder isRgb => .request (Machine.requestWord 0x4 (Machine.writeFlag isRgb) 0 0 0 0) []
  | .writeData16 word => .request (Machine.requestWord 0x5 word 0 0 0 0) []
  | .drawPixel x y color =>
      .request (Machine.requestWord 0x6 (Machine.writeSigned x) (Machine.writeSigned y) color 0 0) []
  | .fillRect x y w h color =>
      .request (Machine.requestWord 0x7 (Machine.writeSigned x) (Machine.writeSigned y)
        (Machine.writeSigned w) (Machine.writeSigned h) color) []
  | .drawLine x0 y0 x1 y1 color =>
      .request (Machine.requestWord 0x8 (Machine.writeSigned x0) (Machine.writeSigned y0)
        (Machine.writeSigned x1) (Machine.writeSigned y1) color) []
  | .drawRect x y w h color =>
      .request (Machine.requestWord 0x9 (Machine.writeSigned x) (Machine.writeSigned y)
        (Machine.writeSigned w) (Machine.writeSigned h) color) []
  | .drawCircle x y r color =>
      .request (Machine.requestWord 0xA (Machine.writeSigned x) (Machine.writeSigned y)
        (Machine.writeSigned r) color 0) []
  | .fillCircle x y r color =>
      .request (Machine.requestWord 0xB (Machine.writeSigned x) (Machine.writeSigned y)
        (Machine.writeSigned r) color 0) []
  | .drawCharFixed x y ch color size =>
      .request (Machine.requestWord 0xC (Machine.writeSigned x) (Machine.writeSigned y)
        (Machine.writeChar ch) color (Machine.writeSigned size)) []
  | .drawStringFixed x y color size payload =>
      .request (Machine.requestWord 0xD (Machine.writeSigned x) (Machine.writeSigned y) color
        (Machine.writeSigned size) 0) payload
  | .drawCharGfx x y ch color =>
      .request (Machine.requestWord 0xE (Machine.writeSigned x) (Machine.writeSigned y)
        (Machine.writeChar ch) color 0) []
  | .drawStringGfx x y color payload =>
      .request (Machine.requestWord 0xF (Machine.writeSigned x) (Machine.writeSigned y) color 0 0) payload
  | .cmd reg => .frame (reg.setWidth 17)
  | .data word => .frame (1#1 ++ word)
  | .eventCmd reg => .event 0 reg.toNat
  | .eventData word => .event 1 word.toNat
  | .eventDelay ms => .event 2 ms
  | .eventReset => .event 3 0

end Sys2Proof
end

