-- ==== Sys2Proof/Machine/Params.lean ====
section
/-! DEFINITION. What the parameters of 00_scope R8 must satisfy, the functions of them that several
units use (the mapped register set, the entry word), and the values State.reset takes. -/

namespace Sys2Proof

/-! ## The register map -/

/-- The eight register roles of 30_encoding R120. -/
def Params.roles (p : Params) : List RegAddr :=
  [p.regHS, p.regHE, p.regVS, p.regVE, p.regAX, p.regAY, p.regGram, p.regEntry]

/-- The registers INIT_SEQUENCE writes (30_encoding R124). -/
def initRegisters : List InitStep → List RegAddr
  | [] => []
  | .writeReg r _ :: steps => r :: initRegisters steps
  | .delay _ :: steps => initRegisters steps

/-- MAPPED as a list (30_encoding R124). -/
def Params.mappedList (p : Params) : List RegAddr :=
  p.roles ++ initRegisters p.initSequence ++ p.decoderExtraRegs

/-- Membership of MAPPED (30_encoding R124). -/
def Params.mapped (p : Params) (r : RegAddr) : Bool :=
  decide (r ∈ p.mappedList)

/-- The seven registers whose data words the decoder does not record (44_decoder R264, R278): the six
setters and the GRAM port. -/
def Params.unrecorded (p : Params) (r : RegAddr) : Bool :=
  decide (r ∈ [p.regHS, p.regHE, p.regVS, p.regVE, p.regAX, p.regAY, p.regGram])

/-! ## The entry word -/

/-- The ENTRY_TABLE row of a rotation (30_encoding R121). -/
def Params.entryFields (p : Params) (rot : BitVec 3) : EntryFields :=
  p.entryTable[rot.toNat]

/-- One bit of the entry word. -/
def bitAt (b : Bool) (position : Nat) : Word16 :=
  if b then 1#16 <<< position else 0#16

/-- The entry word (30_encoding R122); the ORD bit is 1 for BGR (R123). -/
def Params.entryWord (p : Params) (rot : BitVec 3) (ord : ColorOrder) : Word16 :=
  bitAt (ord == .bgr) p.entryOrdBit ||| bitAt (p.entryFields rot).id1 p.entryId1Bit |||
    bitAt (p.entryFields rot).id0 p.entryId0Bit ||| bitAt (p.entryFields rot).am p.entryAmBit

/-- The observation `ordOf` of a recorded entry word (30_encoding R125). -/
def Params.ordOf (p : Params) (w : Word16) : ColorOrder :=
  if w.getLsbD p.entryOrdBit then .bgr else .rgb

/-- ENTRY_TABLE is injective: different rotations have different fields (30_encoding R125). -/
def Params.entryInjective (p : Params) : Bool :=
  decide (∀ a b : BitVec 3, p.entryFields a = p.entryFields b → a = b)

/-- The observation `rotationOf` (30_encoding R125): the unique rotation of the word's three fields, absent
when no rotation has them, and not defined at all unless ENTRY_TABLE is injective. -/
def Params.rotationOf (p : Params) (w : Word16) : Option (BitVec 3) :=
  let fields : EntryFields :=
    ⟨w.getLsbD p.entryId1Bit, w.getLsbD p.entryId0Bit, w.getLsbD p.entryAmBit⟩
  if p.entryInjective then
    ((List.range 8).map (BitVec.ofNat 3)).find? fun rot => p.entryFields rot == fields
  else none

/-! ## Well-formed parameters -/

/-- INIT_SEQUENCE does not write REG_GRAM (41_encoder_config R172). -/
def Params.initSequenceWf (p : Params) : Bool :=
  decide (p.regGram ∉ initRegisters p.initSequence)

/-- The entry bit positions are distinct and lie in 0..15 (00_scope R8). -/
def Params.entryBitsWf (p : Params) : Bool :=
  let bits := [p.entryOrdBit, p.entryId1Bit, p.entryId0Bit, p.entryAmBit]
  decide bits.Nodup && bits.all (fun b => decide (b ≤ 15))

/-- DEDUCED (log 13): the reset window (0, 0, FB_W-1, FB_H-1) of 10_state R49 fits its 16-bit fields. -/
def Params.framebufferWf (p : Params) : Bool :=
  decide (1 ≤ p.fbW) && decide (p.fbW ≤ 65536) && decide (1 ≤ p.fbH) && decide (p.fbH ≤ 65536)

/-- The fixed-cell font is well-formed (45_text R291). -/
def FixedFont.wf (f : FixedFont) : Bool :=
  decide (1 ≤ f.cellWidth) && decide (f.cellWidth ≤ 255) &&
  decide (1 ≤ f.cellHeight) && decide (f.cellHeight ≤ 8) && decide (f.gap ≤ 255) &&
  decide (f.firstChar.toNat ≤ f.lastChar.toNat) &&
  decide (f.data.length = (f.lastChar.toNat - f.firstChar.toNat + 1) * f.cellWidth)

/-- A glyph record lies in its field ranges and inside the bitmap (45_text R300). -/
def GfxGlyph.wf (bitmapLength : Nat) (g : GfxGlyph) : Bool :=
  decide (g.width ≤ 255) && decide (g.height ≤ 255) && decide (g.xAdvance ≤ 255) &&
  decide (-128 ≤ g.xOffset) && decide (g.xOffset ≤ 127) &&
  decide (-128 ≤ g.yOffset) && decide (g.yOffset ≤ 127) &&
  decide (g.bitmapOffset + (g.width * g.height + 7) / 8 ≤ bitmapLength)

/-- The proportional font is well-formed (45_text R300). -/
def GfxFont.wf (f : GfxFont) : Bool :=
  decide (f.first.toNat ≤ f.last.toNat) && decide (f.yAdvance ≤ 255) &&
  decide (f.glyphs.length = f.last.toNat - f.first.toNat + 1) &&
  f.glyphs.all (GfxGlyph.wf f.bitmap.length)

/-- A well-formed parameter set (00_scope R8, 20_memory R76, 41_encoder_config R172, 93 I12): the register
roles, the entry bits, INIT_SEQUENCE, the framebuffer, and both fonts (log 15). -/
def Params.wf (p : Params) : Bool :=
  decide p.roles.Nodup &&
    (p.entryBitsWf && (p.initSequenceWf && (p.framebufferWf && (p.fixedFont.wf && p.gfxFont.wf))))

/-! ## The values State.reset takes -/

/-- The default ENTRY_TABLE (30_encoding R121): `id1 = NOT R`, `id0 = NOT (R XOR M)`, `am = L`. -/
def defaultEntryTable : Vector EntryFields 8 :=
  #v[⟨true, true, false⟩, ⟨true, false, false⟩, ⟨false, false, false⟩, ⟨false, true, false⟩,
     ⟨true, true, true⟩, ⟨true, false, true⟩, ⟨false, false, true⟩, ⟨false, true, true⟩]

/-- `EX_FIXED` (45_text R310). -/
def exampleFixedFont : FixedFont where
  cellWidth := 3
  cellHeight := 5
  firstChar := 0x41
  lastChar := 0x42
  gap := 1
  data := [0x78, 0xA0, 0x78, 0xF8, 0xA8, 0x50]

/-- `EX_GFX` (45_text R310). -/
def exampleGfxFont : GfxFont where
  bitmap := [0xA8]
  first := 0x21
  last := 0x21
  yAdvance := 8
  glyphs := [{ bitmapOffset := 0, width := 3, height := 2, xOffset := 0, yOffset := -2, xAdvance := 4 }]

/-- The defaults of 00_scope R8 (UNVERIFIED against a panel, log 3). DESIGN CHOICE for the OPEN
parameters: the values 95_test_vectors section 0 uses (log 2); no rule reads the last two (log 25). -/
def defaultParams : Params where
  panelW := 176
  panelH := 220
  maxDim := 32767
  fbW := 176
  fbH := 220
  regHS := 0x37
  regHE := 0x36
  regVS := 0x39
  regVE := 0x38
  regAX := 0x20
  regAY := 0x21
  regGram := 0x22
  regEntry := 0x03
  entryOrdBit := 12
  entryId1Bit := 5
  entryId0Bit := 4
  entryAmBit := 3
  entryTable := defaultEntryTable
  colorOrderReset := .bgr
  initSequence := []
  decoderExtraRegs := []
  fixedFont := exampleFixedFont
  gfxFont := exampleGfxFont
  pinRoles := { modeSelect := 0, chipSelect := 1, reset := 2, channel := 3 }
  resetPulseTiming := { lowMs := 0, highMs := 0 }

end Sys2Proof
end

