-- ==== Sys2Proof/Machine/Registers.lean ====
section
/-! DEFINITION. The registers of the front end (10_state R31 to R44) and of the back end (10_state R45 to
R55), with their power-on and creation values (10_state R58). `⊥` is `none`, never 0 (00_scope R13). -/

namespace Sys2Proof.Machine

/-! ## Front end -/

/-- A diagnostic record (60_exceptions R324). -/
structure LogRecord where
  code : BitVec 8
  op : BitVec 4
deriving DecidableEq, Repr

/-- DOC's DeviceState: extents (10_state R32), rotation (R33), colour order (R34), window (R36) and
cursor (R37). Created by INIT (41_encoder_config R173), absent before. -/
structure DeviceState where
  width : Int
  height : Int
  rotation : BitVec 3
  colorOrder : ColorOrder
  win : Window Int
  cx : Int
  cy : Int
deriving DecidableEq, Repr

/-- The front end. `dev = none` is the unconfigured device: `E.configured` is `dev.isSome` and every
DeviceState register is `⊥` (10_state R31, R58; DESIGN CHOICE log 5). `latched` is R38, the pen R39,
`out` and `log` R35, `ready` R44. -/
structure Front where
  dev : Option DeviceState
  latched : Option RegAddr
  penX : Option Int
  penY : Option Int
  out : List Event
  log : List LogRecord
  ready : Bool
deriving DecidableEq, Repr

/-- Power-on of the front end (10_state R58, 70_reset R350). -/
def Front.powerOn : Front where
  dev := none
  latched := none
  penX := none
  penY := none
  out := []
  log := []
  ready := true

/-! ## Back end -/

/-- The decoder's control state (10_state R46). -/
inductive Phase where
  | idle
  | commandLatched
  | dataAccumulating
  | faulted
deriving DecidableEq, Repr

/-- A protocol fault with the information it records (60_exceptions R325). -/
inductive ProtocolError where
  /-- 0x10: data strobe with no command latched since creation or reset (44_decoder R258) -/
  | dataWithoutCommand
  /-- 0x11: command strobe naming an address outside MAPPED (44_decoder R256) -/
  | unmappedRegister (r : RegAddr)
  /-- 0x12: command strobe of a length other than 1 byte (44_decoder R255) -/
  | badCommandLength (length : Nat)
  /-- 0x13: GRAM word with the cursor outside the framebuffer (44_decoder R261) -/
  | pixelOutsideFramebuffer (cx cy : Nat)
  /-- 0x14: GRAM word with the cursor outside the window (44_decoder R261) -/
  | cursorOutsideWindow (cx cy : Nat)
  /-- 0x15: strobe with the chip selected before any selectMode (44_decoder R253) -/
  | modeUnset
deriving DecidableEq, Repr

/-- Memory of 16-bit cells: (address, value) pairs, addresses strictly rising; an unlisted address holds
`⊥` (00_scope R13, 20_memory R73, log 14). -/
abbrev Memory := List (Nat × Word16)

/-- The tag of a frame (44_decoder R276). -/
inductive FrameTag where
  | frame
deriving DecidableEq, Repr

/-- A message to the viewer (10_state R55, 44_decoder R276). -/
structure Frame where
  tag : FrameTag
  width : Nat
  height : Nat
  pixels : List Word16
  payload : List Byte
deriving DecidableEq, Repr

/-- The decoder: pin lines (10_state R45), phase (R46), latched register (R47), pending byte (R48),
window (R49), cursor (R50), framebuffer (R51), dirty flag (R52), fault (R53), register mirror keyed by
address (R54), frames (R55). -/
structure Dec where
  rs : Option Mode
  cs : Bool
  phase : Phase
  latched : Option RegAddr
  partialByte : Option Byte
  win : Window Word16
  cx : Nat
  cy : Nat
  fb : Memory
  dirty : Bool
  err : Option ProtocolError
  regs : Memory
  frames : List Frame
deriving DecidableEq, Repr

/-- The reset window (0, 0, FB_W-1, FB_H-1) (10_state R49). -/
def resetWindow (p : Params) : Window Word16 :=
  ⟨0, 0, BitVec.ofNat 16 (p.fbW - 1), BitVec.ofNat 16 (p.fbH - 1)⟩

/-- A newly created decoder (10_state R58, 70_reset R351). -/
def Dec.created (p : Params) : Dec where
  rs := none
  cs := false
  phase := .idle
  latched := none
  partialByte := none
  win := resetWindow p
  cx := 0
  cy := 0
  fb := []
  dirty := false
  err := none
  regs := []
  frames := []

/-! ## The read port -/

/-- A query of the read port (44_decoder R278). -/
inductive Query where
  | pixel (x y : Int)
  | fault
  | dirty
  | window
  | cursor
  | latched
  | phase
  | reg (r : RegAddr)
  | frames
deriving DecidableEq, Repr

/-- The answer to a query (44_decoder R278). -/
inductive Answer where
  | pixel (v : Option Word16)
  | fault (e : Option ProtocolError)
  | dirty (b : Bool)
  | window (w : Window Word16)
  | cursor (cx cy : Nat)
  | latched (r : Option RegAddr)
  | phase (ph : Phase)
  | reg (v : Option Word16)
  | frames (fs : List Frame)
deriving DecidableEq, Repr

/-- The step result of a decoder input: nothing, the FAULT signalled to its caller (60_exceptions R328),
or the answer of a read (44_decoder R278). -/
inductive InputResult where
  | none
  | fault (e : ProtocolError)
  | answer (a : Answer)
deriving DecidableEq, Repr

end Sys2Proof.Machine
end

