-- ==== Sys2Proof/Machine/State.lean ====
section
/-! DEFINITION. The whole machine's state as plain data, the reasons a step can stop, and the state after
reset. -/

namespace Sys2Proof.Machine

/-- What an external agent presents to the machine (00_scope R7, 44_decoder R250; log 7).
`instr`: an encoded instruction on its port. `awaitReady`: the requester waits for `E.ready = 1`
(70_reset R356). `transport`: the transport takes its turn. `pin`, `flush`, `read`: the decoder's inputs.
`createDecoder`: its owner replaces it by a new one (70_reset R351). -/
inductive Input where
  | instr (w : PortWord)
  | awaitReady
  | transport
  | pin (a : PinAction)
  | flush
  | read (q : Query)
  | createDecoder
deriving DecidableEq, Repr

/-- The machine. `par`: the parameters (00_scope R8), which no step changes. `enc`: the front end.
`dec`: the back end. `wire`: the pin actions of emitted events that the transport has not carried yet
(40_transport R149). `owed`: how many of them, from the head of the wire, are still to be carried before
the last event of the executing request has been carried (40_transport R153), 0 when no request is
executing. `inputs`: what the external agents present, oldest first. `result`: the step result of the last
decoder input. -/
structure State where
  par : Params
  enc : Front
  dec : Dec
  wire : List PinAction
  owed : Nat
  inputs : List Input
  result : InputResult
deriving DecidableEq, Repr

/-- A fault that stops the machine: there is none. Front-end errors are logged and dropped
(60_exceptions R326) and a decoder ProtocolError is a next state (60_exceptions R328, log 10). -/
inductive Fault where
deriving DecidableEq, Repr

/-- What the model refuses. Each is safe: the machine stops where the spec gives no meaning. -/
inductive Refusal where
  /-- `exec`, for an instruction that has no meaning yet: safe. -/
  | notModelled (mnemonic : String)
  /-- `step`, for a request presented while `E.ready = 0` (10_state R44, 93 I1): safe. -/
  | requestWhileBusy
  /-- `step`, for a port word that is no instruction (30_encoding R105, R110, 93 I13): safe. -/
  | undecodable (why : DecodeError)
  /-- `step`, under an ill-formed parameter set, an ill-formed font among them (00_scope R8, 20_memory R76,
  41_encoder_config R172, 93 I12): safe. -/
  | illFormedParameters
  /-- The text requests, under an ill-formed font (20_memory R76, 45_text R291, R300, 93 I12): safe. -/
  | illFormedFont
  /-- `step`, for a query outside the framebuffer or outside MAPPED (44_decoder R278, 93 I15): safe. -/
  | illFormedQuery (q : Query)
  /-- `step`, for another agent's pin actions inside one event's sequence (40_transport R149, 93 I17):
  safe. -/
  | interleavedPins
deriving DecidableEq, Repr

/-- The machine right after reset under given parameters (10_state R58): front-end power-on and decoder
creation, nothing on the wire, nothing presented. -/
def State.resetWith (p : Params) : State where
  par := p
  enc := Front.powerOn
  dec := Dec.created p
  wire := []
  owed := 0
  inputs := []
  result := .none

/-- The machine right after reset (10_state R58, 70_reset R350, R351). -/
def State.reset : State := State.resetWith defaultParams

end Sys2Proof.Machine
end

