-- ==== Sys2Proof/Machine/Flags.lean ====
section
/-! DEFINITION. The status flags (10_state R43) and every computation of one: the configured flag, the
dirty flag of a framebuffer write, the phase as a function of the other decoder fields, and the numeric
codes of diagnostics and faults. The block has no condition codes (10_state R43). -/

namespace Sys2Proof.Machine

/-- `E.configured` (10_state R31): an INIT has created the DeviceState. -/
def Front.configured (e : Front) : Bool := e.dev.isSome

/-- `E.width` as the spec's table lists it: `⊥` while unconfigured (10_state R32). -/
def Front.width (e : Front) : Option Int := e.dev.map DeviceState.width

/-- `E.height`: `⊥` while unconfigured (10_state R32). -/
def Front.height (e : Front) : Option Int := e.dev.map DeviceState.height

/-- The dirty flag after a framebuffer write: set when the stored value changes, where `⊥` to a value
counts as a change (20_memory R74). -/
def dirtyAfterWrite (dirty : Bool) (old : Option Word16) (v : Word16) : Bool :=
  dirty || decide (old ≠ some v)

/-- The phase as a function of the fault, latched and pending-byte registers (44_decoder R280). -/
def phaseOf (err : Option ProtocolError) (latched : Option RegAddr) (partialByte : Option Byte) : Phase :=
  if err.isSome then .faulted
  else if latched.isNone then .idle
  else if partialByte.isSome then .dataAccumulating
  else .commandLatched

/-- CONFIG_ERROR (60_exceptions R321). -/
def configError : BitVec 8 := 0x01

/-- RANGE_ERROR (60_exceptions R322). -/
def rangeError : BitVec 8 := 0x02

/-- ILLEGAL_REQUEST (60_exceptions R323). -/
def illegalRequest : BitVec 8 := 0x03

/-- The code of a protocol fault (60_exceptions R325). -/
def ProtocolError.code : ProtocolError → BitVec 8
  | .dataWithoutCommand => 0x10
  | .unmappedRegister _ => 0x11
  | .badCommandLength _ => 0x12
  | .pixelOutsideFramebuffer _ _ => 0x13
  | .cursorOutsideWindow _ _ => 0x14
  | .modeUnset => 0x15

end Sys2Proof.Machine
end

