-- ==== Sys2Proof/Machine/Ops.lean ====
section
/-! DEFINITION. The named operations over memory and registers: the cell memory, font memory, the
addressing rule, the transport's framing, the emission primitives, the window setter, dropping a request,
and the decoder's fault entry with the only way out of it. -/

namespace Sys2Proof.Machine

/-! ## Cell memory -/

/-- The value at an address, `none` for `⊥` (00_scope R13). -/
def Memory.read : Memory → Nat → Option Word16
  | [], _ => none
  | (k, v) :: rest, a => if a = k then some v else Memory.read rest a

/-- Store a value, keeping addresses strictly rising. -/
def Memory.write : Memory → Nat → Word16 → Memory
  | [], a, w => [(a, w)]
  | (k, v) :: rest, a, w =>
    if a < k then (a, w) :: (k, v) :: rest
    else if a = k then (k, w) :: rest
    else (k, v) :: Memory.write rest a w

/-- The canonical form: addresses strictly rising. No entry can equal what an unlisted address reads as,
since that is `⊥`. -/
def Memory.wf : Memory → Bool
  | [] => true
  | [_] => true
  | (k, _) :: (k', v') :: rest => decide (k < k') && Memory.wf ((k', v') :: rest)

/-- The row-major element number of cell `(x, y)` (20_memory R73). -/
def cellIndex (p : Params) (x y : Nat) : Nat := y * p.fbW + x

/-- `D.fb[y][x]` (10_state R51). -/
def Dec.cell (p : Params) (d : Dec) (x y : Nat) : Option Word16 := Memory.read d.fb (cellIndex p x y)

/-- `FBWrite(x, y, v)` (20_memory R74). -/
def Dec.fbWrite (p : Params) (x y : Nat) (v : Word16) (d : Dec) : Dec :=
  { d with fb := Memory.write d.fb (cellIndex p x y) v
           dirty := dirtyAfterWrite d.dirty (d.cell p x y) v }

/-! ## Font memory -/

/-- `MemRead(FONT, a, 1)` (20_memory R76): no value outside the array, which a well-formed font never
asks for. -/
def memRead (array : List Byte) (a : Nat) : Option Byte := array[a]?

/-- Bit `7 - k` of a font byte: bits are numbered MSB first (20_memory R79). -/
def fontBit (array : List Byte) (a k : Nat) : Bool :=
  match memRead array a with
  | some b => b.getLsbD (7 - k)
  | none => false

/-! ## The addressing rule -/

/-- The window with every corner mapped. -/
def mapWindow {α β : Type} (f : α → β) (w : Window α) : Window β :=
  ⟨f w.x1, f w.y1, f w.x2, f w.y2⟩

/-- `Advance` (40_transport R150, R151): the one addressing rule, used by the front end on integers and
by the decoder on naturals. -/
def advance {α : Type} [LE α] [DecidableLE α] [Add α] [OfNat α 1] (w : Window α) (cx cy : α) : α × α :=
  if cx + 1 ≤ w.x2 then (cx + 1, cy)
  else if cy + 1 ≤ w.y2 then (w.x1, cy + 1)
  else (w.x1, w.y1)

/-! ## Framing -/

/-- The level of the mode line RS: 0 is command, 1 is data (00_scope R14). -/
def modeLine : Mode → BitVec 1
  | .cmd => 0
  | .data => 1

/-- The pin sequence that carries an event (40_transport R146, R147, R148), a data word most significant
byte first (20_memory R78). -/
def framing : Event → List PinAction
  | .cmd r => [.selectMode .cmd, .selectChip true, .writeBytes [r], .selectChip false]
  | .data w =>
      [.selectMode .data, .selectChip true, .writeBytes [w.extractLsb' 8 8, w.extractLsb' 0 8],
       .selectChip false]
  | .delay ms => [.delay ms]
  | .reset => [.resetPulse true true]

/-- The transport takes an event that is given to it from outside: its pin actions follow those already on
the wire, in order and contiguous (40_transport R149). DESIGN CHOICE (log 8): no executing request waits
for it, so `owed` stays. -/
def State.carry (ev : Event) (s : State) : State :=
  { s with wire := s.wire ++ framing ev }

/-! ## Emission primitives -/

/-- `Emit(ev)` (40_transport R140): append to `E.out` and give the event to the transport; `E.ready` is 0
until it, and so everything on the wire before it, has been carried (40_transport R149, R153). -/
def State.emit (ev : Event) (s : State) : State :=
  { s with enc := { s.enc with out := s.enc.out ++ [ev], ready := false }
           wire := s.wire ++ framing ev
           owed := (s.wire ++ framing ev).length }

/-- `Log(code)` (40_transport R140): append `(code, op)` to `E.log`. -/
def State.logDiag (code : BitVec 8) (op : BitVec 4) (s : State) : State :=
  { s with enc := { s.enc with log := s.enc.log ++ [⟨code, op⟩] } }

/-- `EmitCmd(r)` (40_transport R141). -/
def State.emitCmd (r : RegAddr) (s : State) : State :=
  let t := s.emit (.cmd r)
  { t with enc := { t.enc with latched := some r } }

/-- The cursor of a configured device moved by the addressing rule. -/
def DeviceState.advanceCursor (d : DeviceState) : DeviceState :=
  { d with cx := (advance d.win d.cx d.cy).1, cy := (advance d.win d.cx d.cy).2 }

/-- `EmitData(w)` (40_transport R142): the cursor advances when the latched register is REG_GRAM. -/
def State.emitData (w : Word16) (s : State) : State :=
  let t := s.emit (.data w)
  if s.enc.latched = some s.par.regGram then
    { t with enc := { t.enc with dev := t.enc.dev.map DeviceState.advanceCursor } }
  else t

/-- `repeat n times: EmitData(w)` (42_raster_primitives R206). -/
def State.emitDataTimes : Nat → Word16 → State → State
  | 0, _, s => s
  | n + 1, w, s => State.emitDataTimes n w (s.emitData w)

/-- `WriteReg(r, v)` (40_transport R144). -/
def State.writeReg (r : RegAddr) (v : Word16) (s : State) : State :=
  (s.emitCmd r).emitData v

/-- The window and cursor registers of the front end, written together (41_encoder_config R182). -/
def DeviceState.setWindow (w : Window Int) (d : DeviceState) : DeviceState :=
  { d with win := w, cx := w.x1, cy := w.y1 }

/-- `SetWindowCore` (41_encoder_config R182): six register writes, the command that opens GRAM write mode,
then the window and the cursor. -/
def State.setWindowCore (w : Window Int) (s : State) : State :=
  let t := (((((((s.writeReg s.par.regHS (coordWord w.x1)).writeReg s.par.regHE (coordWord w.x2)).writeReg
    s.par.regVS (coordWord w.y1)).writeReg s.par.regVE (coordWord w.y2)).writeReg
    s.par.regAX (coordWord w.x1)).writeReg s.par.regAY (coordWord w.y1)).emitCmd s.par.regGram)
  { t with enc := { t.enc with dev := t.enc.dev.map (DeviceState.setWindow w) } }

/-- The text result register (10_state R39, 45_text R306). -/
def State.setPen (pen : Point) (s : State) : State :=
  { s with enc := { s.enc with penX := some pen.x, penY := some pen.y } }

/-! ## Front-end errors -/

/-- A front-end error (60_exceptions R326): the request is dropped, one record is logged, nothing else
changes, and the next request is accepted as usual. -/
def State.drop (code : BitVec 8) (op : BitVec 4) (s : State) : State := s.logDiag code op

/-- The common prologue (41_encoder_config R170): without a DeviceState the request is dropped with
CONFIG_ERROR; otherwise its body runs. -/
def State.withDevice (op : BitVec 4) (s : State) (body : DeviceState → State) : State :=
  match s.enc.dev with
  | none => s.drop configError op
  | some d => body d

/-! ## The decoder's fault entry -/

/-- `raise ProtocolError(code, info)` (60_exceptions R328): record the fault, enter Faulted, and signal it
to the caller of the input; nothing else changes. -/
def Dec.raise (e : ProtocolError) (d : Dec) : Dec × Option ProtocolError :=
  ({ d with err := some e, phase := .faulted }, some e)

/-- The step result of a decoder input: the signal, if it raised one (60_exceptions R328). -/
def signalled : Option ProtocolError → InputResult
  | some e => .fault e
  | none => .none

/-- There is no return from a fault (60_exceptions R329): only a new decoder clears it (70_reset R351).
The result of the old decoder's last input goes with it (log 19). -/
def State.createDecoder (s : State) : State :=
  { s with dec := Dec.created s.par, result := .none }

end Sys2Proof.Machine
end

