-- ==== Sys2Proof/Machine/Decoder.lean ====
section
/-! DEFINITION. The back end: the protocol decoder of 44_decoder, one function per input. Each returns the
decoder after the input and the fault it signals to its caller, if any. -/

namespace Sys2Proof.Machine

/-! ## Data words -/

/-- The cursor lies inside the window (44_decoder R261); false for an ill-formed window. -/
def Dec.cursorInWindow (d : Dec) : Bool :=
  decide (d.win.x1.toNat ≤ d.cx ∧ d.cx ≤ d.win.x2.toNat ∧ d.win.y1.toNat ≤ d.cy ∧ d.cy ≤ d.win.y2.toNat)

/-- The cursor lies inside the framebuffer (44_decoder R261). -/
def Dec.cursorInFramebuffer (p : Params) (d : Dec) : Bool :=
  decide (d.cx < p.fbW ∧ d.cy < p.fbH)

/-- The cursor moved by the addressing rule (40_transport R150). -/
def Dec.advanceCursor (d : Dec) : Dec :=
  { d with cx := (advance (mapWindow BitVec.toNat d.win) d.cx d.cy).1
           cy := (advance (mapWindow BitVec.toNat d.win) d.cx d.cy).2 }

/-- `GramWrite(w)` (44_decoder R261): the two checks in order, the write, the advance. -/
def Dec.gramWrite (p : Params) (w : Word16) (d : Dec) : Dec × Option ProtocolError :=
  if !d.cursorInWindow then d.raise (.cursorOutsideWindow d.cx d.cy)
  else if !d.cursorInFramebuffer p then d.raise (.pixelOutsideFramebuffer d.cx d.cy)
  else ((d.fbWrite p d.cx d.cy w).advanceCursor, none)

/-- A data word to register `r` (44_decoder R260, 30_encoding R126): the GRAM port (R261), a window setter
(R262), an address setter (R263), or the register mirror (R264). -/
def Dec.registerWord (p : Params) (r : RegAddr) (w : Word16) (d : Dec) : Dec × Option ProtocolError :=
  if r = p.regGram then d.gramWrite p w
  else if r = p.regHS then ({ d with win := { d.win with x1 := w } }, none)
  else if r = p.regHE then ({ d with win := { d.win with x2 := w } }, none)
  else if r = p.regVS then ({ d with win := { d.win with y1 := w } }, none)
  else if r = p.regVE then ({ d with win := { d.win with y2 := w } }, none)
  else if r = p.regAX then ({ d with cx := w.toNat }, none)
  else if r = p.regAY then ({ d with cy := w.toNat }, none)
  else ({ d with regs := Memory.write d.regs r.toNat w }, none)

/-- `DataWord(w)` (44_decoder R260); with no latched register, DATA_WITHOUT_COMMAND (30_encoding R126). -/
def Dec.dataWord (p : Params) (w : Word16) (d : Dec) : Dec × Option ProtocolError :=
  match d.latched with
  | none => d.raise .dataWithoutCommand
  | some r => d.registerWord p r w

/-! ## Strobes -/

/-- `CommandStrobe(B)` (44_decoder R255, R256): the length check, then the mapped check. -/
def Dec.commandStrobe (p : Params) (bytes : List Byte) (d : Dec) : Dec × Option ProtocolError :=
  match bytes with
  | [r] =>
      if p.mapped r then
        ({ d with latched := some r, partialByte := none, phase := .commandLatched }, none)
      else d.raise (.unmappedRegister r)
  | _ => d.raise (.badCommandLength bytes.length)

/-- The bytes of a data strobe, in order (44_decoder R257): the first of a pair waits, the second
completes a word, high byte first; a fault ends the strobe. -/
def Dec.dataBytes (p : Params) : List Byte → Dec → Dec × Option ProtocolError
  | [], d => (d, none)
  | b :: bytes, d =>
    match d.partialByte with
    | none => Dec.dataBytes p bytes { d with partialByte := some b, phase := .dataAccumulating }
    | some high =>
      match Dec.dataWord p (high ++ b) { d with partialByte := none, phase := .commandLatched } with
      | (d', some e) => (d', some e)
      | (d', none) => Dec.dataBytes p bytes d'

/-- `DataStrobe(B)` (44_decoder R257, R258): with no command latched it faults whatever its length. -/
def Dec.dataStrobe (p : Params) (bytes : List Byte) (d : Dec) : Dec × Option ProtocolError :=
  if d.latched.isNone then d.raise .dataWithoutCommand
  else Dec.dataBytes p bytes d

/-- `writeBytes(B)` (44_decoder R253): unselected bytes are not seen; then the mode decides. -/
def Dec.writeBytes (p : Params) (bytes : List Byte) (d : Dec) : Dec × Option ProtocolError :=
  if !d.cs then (d, none)
  else
    match d.rs with
    | none => d.raise .modeUnset
    | some .cmd => d.commandStrobe p bytes
    | some .data => d.dataStrobe p bytes

/-! ## Inputs -/

/-- `resetPulse` (44_decoder R270): the register-level fields return to their creation values; the
framebuffer, dirty flag, frames, fault and pin lines stay (70_reset R352). -/
def Dec.resetPulse (p : Params) (d : Dec) : Dec :=
  { d with latched := none, partialByte := none, phase := .idle, win := resetWindow p, cx := 0, cy := 0,
           regs := [] }

/-- One pin action (44_decoder R251, R252, R253, R270, R271), behind the guard of R254: a faulted decoder
ignores it. -/
def Dec.pin (p : Params) (a : PinAction) (d : Dec) : Dec × Option ProtocolError :=
  if d.err.isSome then (d, none)
  else
    match a with
    | .selectMode m => ({ d with rs := some m }, none)
    | .selectChip active => ({ d with cs := active }, none)
    | .writeBytes bytes => d.writeBytes p bytes
    | .resetPulse _ _ => (d.resetPulse p, none)
    | .delay _ => (d, none)

/-- Several pin actions in order, with the first fault any of them signals. -/
def Dec.pins (p : Params) : List PinAction → Dec → Dec × Option ProtocolError
  | [], d => (d, none)
  | a :: rest, d =>
    let first := d.pin p a
    let last := Dec.pins p rest first.1
    (last.1, first.2 <|> last.2)

/-- The pixels of a frame, row-major, an unwritten cell as 0x0000 (44_decoder R276). -/
def Dec.framePixels (p : Params) (d : Dec) : List Word16 :=
  (List.range p.fbH).flatMap fun y => (List.range p.fbW).map fun x => (d.cell p x y).getD 0#16

/-- `MakeFrame()` (44_decoder R276). -/
def Dec.makeFrame (p : Params) (d : Dec) : Frame where
  tag := .frame
  width := p.fbW
  height := p.fbH
  pixels := d.framePixels p
  payload := Config.frameEncoding (d.framePixels p)

/-- `flush` (44_decoder R275): nothing while faulted or clean, else one frame. -/
def Dec.flush (p : Params) (d : Dec) : Dec :=
  if d.err.isSome then d
  else if !d.dirty then d
  else { d with frames := d.frames ++ [d.makeFrame p], dirty := false }

/-- The read port (44_decoder R278): the answer to a query, none for an ill-formed one. -/
def Dec.answer (p : Params) (q : Query) (d : Dec) : Option Answer :=
  match q with
  | .pixel x y =>
      if 0 ≤ x ∧ x < p.fbW ∧ 0 ≤ y ∧ y < p.fbH then some (.pixel (d.cell p x.toNat y.toNat)) else none
  | .fault => some (.fault d.err)
  | .dirty => some (.dirty d.dirty)
  | .window => some (.window d.win)
  | .cursor => some (.cursor d.cx d.cy)
  | .latched => some (.latched d.latched)
  | .phase => some (.phase d.phase)
  | .reg r => if p.mapped r then some (.reg (Memory.read d.regs r.toNat)) else none
  | .frames => some (.frames d.frames)

/-! ## The decoder inside the machine -/

/-- A pin action reaches the decoder; its step result is the fault it signals. -/
def State.pinInput (a : PinAction) (s : State) : State :=
  { s with dec := (s.dec.pin s.par a).1, result := signalled (s.dec.pin s.par a).2 }

/-- A whole transaction reaches the decoder at once, its pin actions contiguous (20_memory R82). -/
def State.transaction (ev : Event) (s : State) : State :=
  { s with dec := (Dec.pins s.par (framing ev) s.dec).1
           result := signalled (Dec.pins s.par (framing ev) s.dec).2 }

/-- The host flushes the decoder (44_decoder R275). -/
def State.flushInput (s : State) : State :=
  { s with dec := s.dec.flush s.par, result := .none }

/-- One turn of the transport: it carries the next pin action of the wire to the decoder (40_transport
R149). `E.ready` is 1 again with the last pin action of the request's own last event (10_state R44,
40_transport R153), also when events given from outside still stand behind it on the wire: DESIGN CHOICE
(log 8), the spec names no such agent. -/
def State.transportTurn (s : State) : State :=
  match s.wire with
  | [] => { s with owed := 0, enc := { s.enc with ready := true } }
  | a :: rest =>
    let t := State.pinInput a { s with wire := rest, owed := s.owed - 1 }
    { t with enc := { t.enc with ready := t.enc.ready || decide (s.owed ≤ 1) } }

/-- The next pin action continues an event whose first one has been carried: only a `selectMode`,
`resetPulse` or `delay` begins an event (40_transport R146 to R149). -/
def State.midEvent (s : State) : Bool :=
  match s.wire with
  | .selectChip _ :: _ => true
  | .writeBytes _ :: _ => true
  | _ => false

end Sys2Proof.Machine
end

