-- ==== Sys2Proof/Machine/Geometry.lean ====
section
/-! DEFINITION. The rasterizer's algorithms as the cells they plot, in plotting order: window
normalisation, rectangle clipping, the Bresenham line, the midpoint circle and its fill, all in exact
integers (00_scope R12). And the single-pixel write that plots a cell. -/

namespace Sys2Proof.Machine

/-! ## Windows and rectangles -/

/-- `clamp(v, lo, hi)` (00_scope R10). -/
def clamp (v lo hi : Int) : Int := max lo (min v hi)

/-- `NormWindow` (41_encoder_config R181): order each corner pair, then clamp to the device. -/
def DeviceState.normWindow (d : DeviceState) (x1 y1 x2 y2 : Int) : Window Int where
  x1 := clamp (min x1 x2) 0 (d.width - 1)
  y1 := clamp (min y1 y2) 0 (d.height - 1)
  x2 := clamp (max x1 x2) 0 (d.width - 1)
  y2 := clamp (max y1 y2) 0 (d.height - 1)

/-- The cell lies on the device (42_raster_primitives R200). -/
def DeviceState.contains (d : DeviceState) (x y : Int) : Bool :=
  decide (0 ≤ x ∧ x < d.width ∧ 0 ≤ y ∧ y < d.height)

/-- `ClipRect` (42_raster_primitives R205), `none` for EMPTY. -/
def DeviceState.clipRect (d : DeviceState) (x y w h : Int) : Option (Window Int) :=
  if w ≤ 0 ∨ h ≤ 0 then none
  else
    let c : Window Int :=
      ⟨max x 0, max y 0, min (x + w - 1) (d.width - 1), min (y + h - 1) (d.height - 1)⟩
    if c.x1 > c.x2 ∨ c.y1 > c.y2 then none else some c

/-- How many cells a window has (42_raster_primitives R206). -/
def windowCells (w : Window Int) : Nat := ((w.x2 - w.x1 + 1) * (w.y2 - w.y1 + 1)).toNat

/-! ## Lines -/

/-- The loop of `LineCore` (42_raster_primitives R210): `n` steps of the major axis from `x`. -/
def lineWalk (steep : Bool) (dx dy ystep : Int) : Nat → Int → Int → Int → List Point
  | 0, _, _, _ => []
  | n + 1, x, y, err =>
    (if steep then ⟨y, x⟩ else ⟨x, y⟩) ::
      (if err - dy < 0 then lineWalk steep dx dy ystep n (x + 1) (y + ystep) (err - dy + dx)
       else lineWalk steep dx dy ystep n (x + 1) y (err - dy))

/-- The loop of `LineCore` between endpoints whose x order is settled. -/
def lineFrom (steep : Bool) (x0 y0 x1 y1 : Int) : List Point :=
  lineWalk steep (x1 - x0) |y1 - y0| (if y0 < y1 then 1 else -1) (x1 - x0 + 1).toNat x0 y0 ((x1 - x0) / 2)

/-- The second normalisation of `LineCore` (42_raster_primitives R210): the endpoints in x order. -/
def lineOrdered (steep : Bool) (x0 y0 x1 y1 : Int) : List Point :=
  if x0 > x1 then lineFrom steep x1 y1 x0 y0 else lineFrom steep x0 y0 x1 y1

/-- The cells `LineCore` plots, in order (42_raster_primitives R210): a steep line exchanges the roles of
x and y. -/
def lineCells (x0 y0 x1 y1 : Int) : List Point :=
  if |y1 - y0| > |x1 - x0| then lineOrdered true y0 x0 y1 x1 else lineOrdered false x0 y0 x1 y1

/-- The four edges of `DRAW_RECT` in order: top, right, bottom, left (42_raster_primitives R215). -/
def rectCells (x y w h : Int) : List Point :=
  lineCells x y (x + w - 1) y ++ lineCells (x + w - 1) y (x + w - 1) (y + h - 1) ++
    lineCells (x + w - 1) (y + h - 1) x (y + h - 1) ++ lineCells x (y + h - 1) x y

/-! ## Circles -/

/-- `CircleAccept` (43_raster_circles R230). -/
def DeviceState.circleAccept (d : DeviceState) (cx cy r : Int) : Bool :=
  decide (r ≥ 1 ∧ cx - r ≥ 0 ∧ cy - r ≥ 0 ∧ cx + r ≤ d.width - 1 ∧ cy + r ≤ d.height - 1)

/-- The loop variables of the midpoint circle (43_raster_circles R231). -/
structure Midpoint where
  f : Int
  ddx : Int
  ddy : Int
  x : Int
  y : Int
deriving DecidableEq, Repr

/-- Their start values (43_raster_circles R231). -/
def Midpoint.start (r : Int) : Midpoint := ⟨1 - r, 1, -2 * r, 0, r⟩

/-- The update of one iteration (43_raster_circles R231): the y part when `f >= 0`, then the x part. -/
def Midpoint.update (m : Midpoint) : Midpoint :=
  let n : Midpoint :=
    if m.f ≥ 0 then { m with y := m.y - 1, ddy := m.ddy + 2, f := m.f + (m.ddy + 2) } else m
  { n with x := n.x + 1, ddx := n.ddx + 2, f := n.f + (n.ddx + 2) }

/-- The `(x, y)` of every iteration of `while x < y`, in order; `n` bounds the iterations. -/
def midpointWalk : Nat → Midpoint → List Point
  | 0, _ => []
  | n + 1, m =>
    if m.x < m.y then ⟨m.update.x, m.update.y⟩ :: midpointWalk n m.update else []

/-- The iterations of a circle of radius `r`: x rises by one and y never rises, so at most `r`. -/
def circleIterations (r : Int) : List Point := midpointWalk r.toNat (Midpoint.start r)

/-- The eight plots of one iteration, in order (43_raster_circles R231). -/
def octantCells (cx cy : Int) (m : Point) : List Point :=
  [⟨cx + m.x, cy + m.y⟩, ⟨cx - m.x, cy + m.y⟩, ⟨cx + m.x, cy - m.y⟩, ⟨cx - m.x, cy - m.y⟩,
   ⟨cx + m.y, cy + m.x⟩, ⟨cx - m.y, cy + m.x⟩, ⟨cx + m.y, cy - m.x⟩, ⟨cx - m.y, cy - m.x⟩]

/-- The cells `DRAW_CIRCLE` plots, in order (43_raster_circles R231): the axis points, then the octants. -/
def circleCells (cx cy r : Int) : List Point :=
  [⟨cx, cy + r⟩, ⟨cx, cy - r⟩, ⟨cx + r, cy⟩, ⟨cx - r, cy⟩] ++
    (circleIterations r).flatMap (octantCells cx cy)

/-- The four spans of one iteration, in order (43_raster_circles R235). -/
def spanCells (cx cy : Int) (m : Point) : List Point :=
  lineCells (cx - m.y) (cy + m.x) (cx + m.y) (cy + m.x) ++
    lineCells (cx - m.y) (cy - m.x) (cx + m.y) (cy - m.x) ++
    lineCells (cx - m.x) (cy + m.y) (cx + m.x) (cy + m.y) ++
    lineCells (cx - m.x) (cy - m.y) (cx + m.x) (cy - m.y)

/-- The cells `FILL_CIRCLE` plots, in order (43_raster_circles R235): the central row, then the spans. -/
def fillCircleCells (cx cy r : Int) : List Point :=
  lineCells (cx - r) cy (cx + r) cy ++ (circleIterations r).flatMap (spanCells cx cy)

/-! ## Plotting -/

/-- `PlotPixel` (42_raster_primitives R200): nothing off the device, else the one-cell window and one data
word. A plot logs nothing; only DRAW_PIXEL logs (R201). -/
def State.plotPixel (c : Color) (s : State) (pt : Point) : State :=
  match s.enc.dev with
  | none => s
  | some d =>
    if d.contains pt.x pt.y then (s.setWindowCore ⟨pt.x, pt.y, pt.x, pt.y⟩).emitData c else s

/-- `PlotPixel` for each cell of a list, in order. -/
def State.plotCells (cells : List Point) (c : Color) (s : State) : State :=
  cells.foldl (State.plotPixel c) s

end Sys2Proof.Machine
end

