-- ==== Sys2Proof/Machine/Glyphs.lean ====
section
/-! DEFINITION. The two glyph sources (45_text R290) and the cells a character or a string plots, with the
pen it leaves. -/

namespace Sys2Proof.Machine

/-- What a glyph source answers for a character (45_text R290): a bitmap of `gw` columns and `gh` rows read
by `bit column row`, its offset from the pen, and its advance. -/
structure Glyph where
  gw : Nat
  gh : Nat
  xo : Int
  yo : Int
  adv : Int
  bit : Nat → Nat → Bool

/-! ## The fixed-cell font -/

/-- `FixedGlyph(ch)` (45_text R292): column `i` of glyph `g` is byte `g * cellWidth + i`, row 0 its MSB. -/
def fixedGlyph (f : FixedFont) (ch : Byte) : Option Glyph :=
  if ch < f.firstChar ∨ ch > f.lastChar then none
  else some
    { gw := f.cellWidth, gh := f.cellHeight, xo := 0, yo := 0, adv := (f.cellWidth + f.gap : Nat)
      bit := fun i j => fontBit f.data ((ch.toNat - f.firstChar.toNat) * f.cellWidth + i) j }

/-- The `s x s` block of a set bit, row-major, its top-left cell at `(x, y)` (45_text R293). -/
def blockCells (x y : Int) (s : Nat) : List Point :=
  (List.range s).flatMap fun (dy : Nat) => (List.range s).map fun (dx : Nat) => ⟨x + dx, y + dy⟩

/-- The plots and the new pen of `FixedChar` (45_text R293): columns outer, rows inner, one block for each
set bit; a character without a glyph draws nothing and does not advance. -/
def fixedChar (f : FixedFont) (size : Nat) (pen : Point) (ch : Byte) : List Point × Point :=
  match fixedGlyph f ch with
  | none => ([], pen)
  | some g =>
    ((List.range g.gw).flatMap fun i => (List.range g.gh).flatMap fun j =>
        if g.bit i j then blockCells (pen.x + (i * size : Nat)) (pen.y + (j * size : Nat)) size else [],
     ⟨pen.x + g.adv * size, pen.y⟩)

/-- The plots and the final pen of a fixed-cell string (45_text R294): every byte is a character. -/
def fixedString (f : FixedFont) (size : Nat) : List Byte → Point → List Point × Point
  | [], pen => ([], pen)
  | ch :: rest, pen =>
    let here := fixedChar f size pen ch
    let after := fixedString f size rest here.2
    (here.1 ++ after.1, after.2)

/-! ## The proportional font -/

/-- `GfxGlyph(ch)` (45_text R301): bit `k = j * width + i`, numbered through the glyph without restarting at
a row. -/
def gfxGlyph (f : GfxFont) (ch : Byte) : Option Glyph :=
  if ch < f.first ∨ ch > f.last then none
  else
    match f.glyphs[ch.toNat - f.first.toNat]? with
    | none => none
    | some r => some
      { gw := r.width, gh := r.height, xo := r.xOffset, yo := r.yOffset, adv := r.xAdvance
        bit := fun i j =>
          fontBit f.bitmap (r.bitmapOffset + (j * r.width + i) / 8) ((j * r.width + i) % 8) }

/-- The plots and the new pen of `GfxChar` (45_text R302): rows outer, columns inner. -/
def gfxChar (f : GfxFont) (pen : Point) (ch : Byte) : List Point × Point :=
  match gfxGlyph f ch with
  | none => ([], pen)
  | some g =>
    ((List.range g.gh).flatMap fun j => (List.range g.gw).flatMap fun i =>
        if g.bit i j then [⟨pen.x + g.xo + i, pen.y + g.yo + j⟩] else [],
     ⟨pen.x + g.adv, pen.y⟩)

/-- The plots and the final pen of a proportional string that starts at column `x` (45_text R303): 0x0A is
a newline before any glyph lookup, back to `x` and down by the line height. -/
def gfxString (f : GfxFont) (x : Int) : List Byte → Point → List Point × Point
  | [], pen => ([], pen)
  | ch :: rest, pen =>
    if ch = 0x0A#8 then gfxString f x rest ⟨x, pen.y + f.yAdvance⟩
    else
      let here := gfxChar f pen ch
      let after := gfxString f x rest here.2
      (here.1 ++ after.1, after.2)

end Sys2Proof.Machine
end

