-- ==== Sys2Proof/Machine/EncoderConfig.lean ====
section
/-! DEFINITION. The meanings of RESERVED and of the configuration and addressing requests (30_encoding R106,
41_encoder_config). -/

namespace Sys2Proof.Machine

/-- RESERVED (30_encoding R106): no event, no register; ILLEGAL_REQUEST is logged before any prologue. -/
def execReserved (s : State) : Host.Outcome State Fault Refusal :=
  .next (s.drop illegalRequest 0x0)

/-- One step of INIT_SEQUENCE (41_encoder_config R171). -/
def State.initStep (s : State) : InitStep → State
  | .writeReg r v => s.writeReg r v
  | .delay ms => s.emit (.delay ms)

/-- The steps of INIT_SEQUENCE, each exactly once, in list order (41_encoder_config R172). -/
def State.initSteps (steps : List InitStep) (s : State) : State := steps.foldl State.initStep s

/-- A rotation operand in `0..7` (41_encoder_config R171, R185). -/
def rotationInRange (rot : Int) : Bool := decide (0 ≤ rot ∧ rot ≤ 7)

/-- INIT's one range check (41_encoder_config R171). -/
def initInRange (p : Params) (w h rot : Int) : Bool :=
  rotationInRange rot && decide (1 ≤ w ∧ w ≤ p.maxDim ∧ 1 ≤ h ∧ h ≤ p.maxDim)

/-- The DeviceState an accepted INIT creates (41_encoder_config R173). -/
def createdDevice (p : Params) (w h rot : Int) : DeviceState where
  width := w
  height := h
  rotation := BitVec.ofInt 3 rot
  colorOrder := p.colorOrderReset
  win := ⟨0, 0, w - 1, h - 1⟩
  cx := 0
  cy := 0

/-- The DeviceState registers written whole. -/
def State.setDevice (d : DeviceState) (s : State) : State :=
  { s with enc := { s.enc with dev := some d } }

/-- INIT (41_encoder_config R171): range check; reset pulse; the vendor sequence; the entry word; the
DeviceState; the full-screen window. The pen is not changed. -/
def execInit (width height rotation : Int) (s : State) : Host.Outcome State Fault Refusal :=
  .next <|
    if initInRange s.par width height rotation then
      ((((s.emit .reset).initSteps s.par.initSequence).writeReg s.par.regEntry
        (s.par.entryWord (BitVec.ofInt 3 rotation) s.par.colorOrderReset)).setDevice
        (createdDevice s.par width height rotation)).setWindowCore ⟨0, 0, width - 1, height - 1⟩
    else s.drop rangeError 0x1

/-- SET_WINDOW (41_encoder_config R180): never dropped, always sent. -/
def execSetWindow (x1 y1 x2 y2 : Int) (s : State) : Host.Outcome State Fault Refusal :=
  .next (s.withDevice 0x2 fun d => s.setWindowCore (d.normWindow x1 y1 x2 y2))

/-- The registers SET_ROTATION writes (41_encoder_config R185, R186): the rotation, and the extents
exchanged when bit 2 differs. Window and cursor stay. -/
def DeviceState.rotate (rot : BitVec 3) (d : DeviceState) : DeviceState :=
  if d.rotation.getLsbD 2 = rot.getLsbD 2 then { d with rotation := rot }
  else { d with rotation := rot, width := d.height, height := d.width }

/-- SET_ROTATION (41_encoder_config R185): the range check before the idempotence test (R187). -/
def execSetRotation (rotation : Int) (s : State) : Host.Outcome State Fault Refusal :=
  .next <| s.withDevice 0x3 fun d =>
    if !rotationInRange rotation then s.drop rangeError 0x3
    else if BitVec.ofInt 3 rotation = d.rotation then s
    else
      (s.setDevice (d.rotate (BitVec.ofInt 3 rotation))).writeReg s.par.regEntry
        (s.par.entryWord (BitVec.ofInt 3 rotation) d.colorOrder)

/-- The order SET_COLOR_ORDER selects (30_encoding R123). -/
def selectedOrder (isRgb : Bool) : ColorOrder := if isRgb then .rgb else .bgr

/-- SET_COLOR_ORDER (41_encoder_config R190), idempotent (R187). -/
def execSetColorOrder (isRgb : Bool) (s : State) : Host.Outcome State Fault Refusal :=
  .next <| s.withDevice 0x4 fun d =>
    if selectedOrder isRgb = d.colorOrder then s
    else
      (s.setDevice { d with colorOrder := selectedOrder isRgb }).writeReg s.par.regEntry
        (s.par.entryWord d.rotation (selectedOrder isRgb))

/-- `EmitCmd(REG_GRAM)` when GRAM is not the latched register (41_encoder_config R193). -/
def State.reopenGram (s : State) : State :=
  if s.enc.latched = some s.par.regGram then s else s.emitCmd s.par.regGram

/-- WRITE_DATA16 (41_encoder_config R193): reopen GRAM write mode if need be, then the word. -/
def execWriteData16 (word : Word16) (s : State) : Host.Outcome State Fault Refusal :=
  .next (s.withDevice 0x5 fun _ => s.reopenGram.emitData word)

end Sys2Proof.Machine
end

