-- ==== Sys2Proof/Machine/RasterPrimitives.lean ====
section
/-! DEFINITION. The meanings of DRAW_PIXEL, FILL_RECT, DRAW_LINE and DRAW_RECT (42_raster_primitives). -/

namespace Sys2Proof.Machine

/-- DRAW_PIXEL (42_raster_primitives R201): a pixel off the device is a logged RANGE_ERROR. -/
def execDrawPixel (x y : Int) (color : Color) (s : State) : Host.Outcome State Fault Refusal :=
  .next <| s.withDevice 0x6 fun d =>
    if d.contains x y then s.plotPixel color ⟨x, y⟩ else s.drop rangeError 0x6

/-- FILL_RECT (42_raster_primitives R206): one window, then one data word for each clipped cell. DEDUCED
(log 26): R206's corner case gives a one-cell rectangle "a different trace" from DRAW_PIXEL, while its
pseudocode, its count `13 + N` and 95_test_vectors V-FR-8 give the same 14 events; they are followed. -/
def execFillRect (x y w h : Int) (color : Color) (s : State) : Host.Outcome State Fault Refusal :=
  .next <| s.withDevice 0x7 fun d =>
    match d.clipRect x y w h with
    | none => s.drop rangeError 0x7
    | some c => (s.setWindowCore c).emitDataTimes (windowCells c) color

/-- DRAW_LINE (42_raster_primitives R211): clipped pixel by pixel, nothing logged. -/
def execDrawLine (x0 y0 x1 y1 : Int) (color : Color) (s : State) : Host.Outcome State Fault Refusal :=
  .next (s.withDevice 0x8 fun _ => s.plotCells (lineCells x0 y0 x1 y1) color)

/-- DRAW_RECT (42_raster_primitives R215): four lines, clipped pixel by pixel. -/
def execDrawRect (x y w h : Int) (color : Color) (s : State) : Host.Outcome State Fault Refusal :=
  .next <| s.withDevice 0x9 fun _ =>
    if w ≤ 0 ∨ h ≤ 0 then s.drop rangeError 0x9 else s.plotCells (rectCells x y w h) color

end Sys2Proof.Machine
end

