-- ==== Sys2Proof/Machine/RasterCircles.lean ====
section
/-! DEFINITION. The meanings of DRAW_CIRCLE and FILL_CIRCLE (43_raster_circles). -/

namespace Sys2Proof.Machine

/-- DRAW_CIRCLE (43_raster_circles R231): dropped whole unless its bounding box is on the device (R230). -/
def execDrawCircle (x y r : Int) (color : Color) (s : State) : Host.Outcome State Fault Refusal :=
  .next <| s.withDevice 0xA fun d =>
    if d.circleAccept x y r then s.plotCells (circleCells x y r) color else s.drop rangeError 0xA

/-- FILL_CIRCLE (43_raster_circles R235): the same acceptance (R230). -/
def execFillCircle (x y r : Int) (color : Color) (s : State) : Host.Outcome State Fault Refusal :=
  .next <| s.withDevice 0xB fun d =>
    if d.circleAccept x y r then s.plotCells (fillCircleCells x y r) color else s.drop rangeError 0xB

end Sys2Proof.Machine
end

