-- ==== Sys2Proof/Machine/Text.lean ====
section
/-! DEFINITION. The meanings of the four text requests (45_text). The step refuses an ill-formed font with
the parameter set it belongs to (20_memory R76); the meanings refuse it too, before their prologue, so that
no meaning ever reads outside a font array (log 15). -/

namespace Sys2Proof.Machine

/-- Plot a character's or a string's cells and write the pen it leaves (45_text R306). -/
def State.drawText (drawn : List Point × Point) (color : Color) (s : State) : State :=
  (s.plotCells drawn.1 color).setPen drawn.2

/-- DRAW_CHAR_FIXED (45_text R293). -/
def execDrawCharFixed (x y : Int) (ch : Byte) (color : Color) (size : Int) (s : State) :
    Host.Outcome State Fault Refusal :=
  if s.par.fixedFont.wf then
    .next <| s.withDevice 0xC fun _ =>
      if size < 1 then s.drop rangeError 0xC
      else s.drawText (fixedChar s.par.fixedFont size.toNat ⟨x, y⟩ ch) color
  else .refused .illFormedFont

/-- DRAW_STRING_FIXED (45_text R294). -/
def execDrawStringFixed (x y : Int) (color : Color) (size : Int) (payload : List Byte) (s : State) :
    Host.Outcome State Fault Refusal :=
  if s.par.fixedFont.wf then
    .next <| s.withDevice 0xD fun _ =>
      if size < 1 then s.drop rangeError 0xD
      else s.drawText (fixedString s.par.fixedFont size.toNat payload ⟨x, y⟩) color
  else .refused .illFormedFont

/-- DRAW_CHAR_GFX (45_text R302): no newline in a character request. -/
def execDrawCharGfx (x y : Int) (ch : Byte) (color : Color) (s : State) :
    Host.Outcome State Fault Refusal :=
  if s.par.gfxFont.wf then
    .next (s.withDevice 0xE fun _ => s.drawText (gfxChar s.par.gfxFont ⟨x, y⟩ ch) color)
  else .refused .illFormedFont

/-- DRAW_STRING_GFX (45_text R303). -/
def execDrawStringGfx (x y : Int) (color : Color) (payload : List Byte) (s : State) :
    Host.Outcome State Fault Refusal :=
  if s.par.gfxFont.wf then
    .next (s.withDevice 0xF fun _ => s.drawText (gfxString s.par.gfxFont x payload ⟨x, y⟩) color)
  else .refused .illFormedFont

end Sys2Proof.Machine
end

