-- ==== Sys2Proof/Machine/Transactions.lean ====
section
/-! DEFINITION. The meanings of the two transaction frames, delivered whole to the back end (30_encoding
R110, R111; log 9), and of the four events, given to the transport (30_encoding R114, R115; log 8). -/

namespace Sys2Proof.Machine

/-- Cmd (30_encoding R111): the back end receives the command, framed as 40_transport R146 says. -/
def execCmd (reg : RegAddr) (s : State) : Host.Outcome State Fault Refusal :=
  .next (s.transaction (.cmd reg))

/-- Data (30_encoding R111): the back end receives the data word, framed as 40_transport R147 says. -/
def execData (word : Word16) (s : State) : Host.Outcome State Fault Refusal :=
  .next (s.transaction (.data word))

/-- EVENT_CMD: the transport carries `Cmd(r)` (40_transport R146). -/
def execEventCmd (reg : RegAddr) (s : State) : Host.Outcome State Fault Refusal :=
  .next (s.carry (.cmd reg))

/-- EVENT_DATA: the transport carries `Data(w)` (40_transport R147). -/
def execEventData (word : Word16) (s : State) : Host.Outcome State Fault Refusal :=
  .next (s.carry (.data word))

/-- EVENT_DELAY: the transport carries `Delay(ms)`, a wait with no pin change (40_transport R148). -/
def execEventDelay (ms : Nat) (s : State) : Host.Outcome State Fault Refusal :=
  .next (s.carry (.delay ms))

/-- EVENT_RESET: the transport carries `Reset` as one reset pulse (40_transport R148). -/
def execEventReset (s : State) : Host.Outcome State Fault Refusal :=
  .next (s.carry .reset)

end Sys2Proof.Machine
end

