-- ==== Sys2Proof/Machine/Dispatch.lean ====
section
/-! DEFINITION. The dispatch: one arm for each instruction, one direct call of its meaning. -/

namespace Sys2Proof.Machine

def exec (i : Instr) (s : State) : Host.Outcome State Fault Refusal :=
  match i with
  | .reserved => Sys2Proof.Machine.execReserved s
  | .init width height rotation => Sys2Proof.Machine.execInit width height rotation s
  | .setWindow x1 y1 x2 y2 => Sys2Proof.Machine.execSetWindow x1 y1 x2 y2 s
  | .setRotation rotation => Sys2Proof.Machine.execSetRotation rotation s
  | .setColorOrder isRgb => Sys2Proof.Machine.execSetColorOrder isRgb s
  | .writeData16 word => Sys2Proof.Machine.execWriteData16 word s
  | .drawPixel x y color => Sys2Proof.Machine.execDrawPixel x y color s
  | .fillRect x y w h color => Sys2Proof.Machine.execFillRect x y w h color s
  | .drawLine x0 y0 x1 y1 color => Sys2Proof.Machine.execDrawLine x0 y0 x1 y1 color s
  | .drawRect x y w h color => Sys2Proof.Machine.execDrawRect x y w h color s
  | .drawCircle x y r color => Sys2Proof.Machine.execDrawCircle x y r color s
  | .fillCircle x y r color => Sys2Proof.Machine.execFillCircle x y r color s
  | .drawCharFixed x y ch color size => Sys2Proof.Machine.execDrawCharFixed x y ch color size s
  | .drawStringFixed x y color size payload => Sys2Proof.Machine.execDrawStringFixed x y color size payload s
  | .drawCharGfx x y ch color => Sys2Proof.Machine.execDrawCharGfx x y ch color s
  | .drawStringGfx x y color payload => Sys2Proof.Machine.execDrawStringGfx x y color payload s
  | .cmd reg => Sys2Proof.Machine.execCmd reg s
  | .data word => Sys2Proof.Machine.execData word s
  | .eventCmd reg => Sys2Proof.Machine.execEventCmd reg s
  | .eventData word => Sys2Proof.Machine.execEventData word s
  | .eventDelay ms => Sys2Proof.Machine.execEventDelay ms s
  | .eventReset => Sys2Proof.Machine.execEventReset s

end Sys2Proof.Machine
end

