-- ==== Sys2Proof/Machine/Ports.lean ====
section
/-! DEFINITION. What one step does with the input at the head of the line, and how a table row's bits are
put there. -/

namespace Sys2Proof.Machine

/-- The port an instruction stands on is open: a request needs `E.ready = 1` (10_state R44, 70_reset R356);
a frame must not fall inside an event's pin sequence (40_transport R149); the transport always takes an
event, after those it carries. -/
def State.portRefusal (w : PortWord) (s : State) : Option Refusal :=
  match w with
  | .request _ _ => if s.enc.ready then none else some .requestWhileBusy
  | .frame _ => if s.midEvent then some .interleavedPins else none
  | .event _ _ => none

/-- An instruction on its port: accept it, decode it, execute it. -/
def State.takeInstr (w : PortWord) (s : State) : Host.Outcome State Fault Refusal :=
  match s.portRefusal w with
  | some r => .refused r
  | none =>
    match decode w with
    | .error why => .refused (.undecodable why)
    | .ok i => exec i s

/-- A read of the decoder: the step result is the answer, and no register changes (44_decoder R278). -/
def State.readInput (q : Query) (s : State) : Host.Outcome State Fault Refusal :=
  match s.dec.answer s.par q with
  | some a => .next { s with result := .answer a }
  | none => .refused (.illFormedQuery q)

/-- A pin action of an agent other than the transport (44_decoder R250), not inside an event's sequence
(40_transport R149). -/
def State.pinTurn (a : PinAction) (s : State) : Host.Outcome State Fault Refusal :=
  if s.midEvent then .refused .interleavedPins else .next (s.pinInput a)

/-- One input, already taken off the line; a waiting requester stays there until `E.ready = 1`. -/
def State.takeInput (i : Input) (s : State) : Host.Outcome State Fault Refusal :=
  match i with
  | .instr w => s.takeInstr w
  | .awaitReady =>
      if s.enc.ready then .next s
      else .next (State.transportTurn { s with inputs := .awaitReady :: s.inputs })
  | .transport => .next s.transportTurn
  | .pin a => s.pinTurn a
  | .flush => .next s.flushInput
  | .read q => s.readInput q
  | .createDecoder => .next s.createDecoder

/-- One step: an ill-formed parameter set is refused (00_scope R8); the input at the head of the line is
taken; with nothing presented the transport takes its turn (log 7). -/
def State.turn (s : State) : Host.Outcome State Fault Refusal :=
  if s.par.wf then
    match s.inputs with
    | [] => .next s.transportTurn
    | i :: rest => State.takeInput i { s with inputs := rest }
  else .refused .illFormedParameters

/-- A table row's bits at the head of the line, every port open: the request port ready and no transfer in
progress (log 12). -/
def State.present (nbits w : Nat) (s : State) : State :=
  { s with inputs := .instr (portWordOf nbits w) :: s.inputs
           enc := { s.enc with ready := true }
           wire := []
           owed := 0 }

end Sys2Proof.Machine
end

