-- ==== Sys2Proof/Machine/Step.lean ====
section
/-! DEFINITION. One step of the machine, and the state whose next step runs a given table row. -/

namespace Sys2Proof.Machine

/-- One step: one whole request for the front end, one pin action for the back end, or one other input
(00_scope R7). -/
def step (s : State) : Host.Outcome State Fault Refusal := s.turn

/-- `s` with the instruction of a table row where step takes its next instruction (log 12). -/
def State.withFetchWord (s : State) (nbits w : Nat) : State := s.present nbits w

end Sys2Proof.Machine
end

