-- ==== Sys2Proof/Machine/Trace.lean ====
section
/-! DEFINITION. The written forms: the assembler text of a request (30_encoding R130) and the event-trace
text (30_encoding R131). No step reads them. -/

namespace Sys2Proof.Machine

/-- One hexadecimal digit, upper case. -/
def hexDigit (n : Nat) : Char := Nat.digitChar n |>.toUpper

/-- `n` in exactly `digits` hexadecimal digits. -/
def hexText (digits n : Nat) : String :=
  String.ofList ((List.range digits).reverse.map fun k => hexDigit (n / 16 ^ k % 16))

/-- `C rr`, `D wwww`, `W n` or `RST` (30_encoding R131). -/
def eventText : Event → String
  | .cmd r => "C " ++ hexText 2 r.toNat
  | .data w => "D " ++ hexText 4 w.toNat
  | .delay ms => "W " ++ toString ms
  | .reset => "RST"

/-- `WR rr, wwww`, the abbreviation of the pair `C rr` and `D wwww` (30_encoding R131). -/
def writeRegText (r : RegAddr) (w : Word16) : String :=
  "WR " ++ hexText 2 r.toNat ++ ", " ++ hexText 4 w.toNat

/-- An operand in decimal. -/
def intText (v : Int) : String := toString v

/-- An operand in hexadecimal. -/
def wordText (w : Word16) : String := "0x" ++ hexText 4 w.toNat

/-- A payload byte inside the quotes: printable ASCII as itself, 0x0A as `\n`, any other byte, the quote
and the backslash as `\xHH` (30_encoding R130). -/
def payloadByteText (b : Byte) : String :=
  if b = 0x0A then "\\n"
  else if 0x20 ≤ b.toNat ∧ b.toNat ≤ 0x7E ∧ b ≠ 0x22 ∧ b ≠ 0x5C then
    String.ofList [Char.ofNat b.toNat]
  else "\\x" ++ hexText 2 b.toNat

/-- A string payload: double-quoted (30_encoding R130). -/
def payloadText (payload : List Byte) : String :=
  "\"" ++ String.join (payload.map payloadByteText) ++ "\""

/-- The mnemonic of the opcode table. -/
def mnemonicText : Instr → String
  | .reserved => "RESERVED"
  | .init .. => "INIT"
  | .setWindow .. => "SET_WINDOW"
  | .setRotation .. => "SET_ROTATION"
  | .setColorOrder .. => "SET_COLOR_ORDER"
  | .writeData16 .. => "WRITE_DATA16"
  | .drawPixel .. => "DRAW_PIXEL"
  | .fillRect .. => "FILL_RECT"
  | .drawLine .. => "DRAW_LINE"
  | .drawRect .. => "DRAW_RECT"
  | .drawCircle .. => "DRAW_CIRCLE"
  | .fillCircle .. => "FILL_CIRCLE"
  | .drawCharFixed .. => "DRAW_CHAR_FIXED"
  | .drawStringFixed .. => "DRAW_STRING_FIXED"
  | .drawCharGfx .. => "DRAW_CHAR_GFX"
  | .drawStringGfx .. => "DRAW_STRING_GFX"
  | .cmd .. => "Cmd"
  | .data .. => "Data"
  | .eventCmd .. => "EVENT_CMD"
  | .eventData .. => "EVENT_DATA"
  | .eventDelay .. => "EVENT_DELAY"
  | .eventReset => "EVENT_RESET"

/-- The operands in the order of 30_encoding R101, blank fields omitted, the payload last. -/
def operandTexts : Instr → List String
  | .reserved => []
  | .init width height rotation => [intText width, intText height, intText rotation]
  | .setWindow x1 y1 x2 y2 => [intText x1, intText y1, intText x2, intText y2]
  | .setRotation rotation => [intText rotation]
  | .setColorOrder isRgb => [if isRgb then "1" else "0"]
  | .writeData16 word => [wordText word]
  | .drawPixel x y color => [intText x, intText y, wordText color]
  | .fillRect x y w h color => [intText x, intText y, intText w, intText h, wordText color]
  | .drawLine x0 y0 x1 y1 color => [intText x0, intText y0, intText x1, intText y1, wordText color]
  | .drawRect x y w h color => [intText x, intText y, intText w, intText h, wordText color]
  | .drawCircle x y r color => [intText x, intText y, intText r, wordText color]
  | .fillCircle x y r color => [intText x, intText y, intText r, wordText color]
  | .drawCharFixed x y ch color size =>
      [intText x, intText y, "0x" ++ hexText 2 ch.toNat, wordText color, intText size]
  | .drawStringFixed x y color size payload =>
      [intText x, intText y, wordText color, intText size, payloadText payload]
  | .drawCharGfx x y ch color => [intText x, intText y, "0x" ++ hexText 2 ch.toNat, wordText color]
  | .drawStringGfx x y color payload => [intText x, intText y, wordText color, payloadText payload]
  | .cmd reg => [hexText 2 reg.toNat]
  | .data word => [hexText 4 word.toNat]
  | .eventCmd reg => [hexText 2 reg.toNat]
  | .eventData word => [hexText 4 word.toNat]
  | .eventDelay ms => [toString ms]
  | .eventReset => []

/-- `MNEMONIC operand, operand, ...` (30_encoding R130). -/
def requestText (i : Instr) : String :=
  match operandTexts i with
  | [] => mnemonicText i
  | operands => mnemonicText i ++ " " ++ String.intercalate ", " operands

end Sys2Proof.Machine
end

