-- ==== Sys2Proof/Safety.lean ====
section
/-! DEFINITION. The terms the statements use: the event lists of the rules written out, the state after
the front end has sent events, what a drawing request paints, the invariant of every step, and the
agreement of the two units. -/

namespace Sys2Proof.Machine

/-! ## Requests -/

/-- The opcode of a request row (30_encoding R101), none for a frame or an event. -/
def opcodeOf : Instr → Option (BitVec 4)
  | .reserved => some 0x0
  | .init _ _ _ => some 0x1
  | .setWindow _ _ _ _ => some 0x2
  | .setRotation _ => some 0x3
  | .setColorOrder _ => some 0x4
  | .writeData16 _ => some 0x5
  | .drawPixel _ _ _ => some 0x6
  | .fillRect _ _ _ _ _ => some 0x7
  | .drawLine _ _ _ _ _ => some 0x8
  | .drawRect _ _ _ _ _ => some 0x9
  | .drawCircle _ _ _ _ => some 0xA
  | .fillCircle _ _ _ _ => some 0xB
  | .drawCharFixed _ _ _ _ _ => some 0xC
  | .drawStringFixed _ _ _ _ _ => some 0xD
  | .drawCharGfx _ _ _ _ => some 0xE
  | .drawStringGfx _ _ _ _ => some 0xF
  | .cmd _ => none
  | .data _ => none
  | .eventCmd _ => none
  | .eventData _ => none
  | .eventDelay _ => none
  | .eventReset => none

/-- Operand field `k` of a request word (30_encoding R100). -/
def operandField (q : BitVec 84) (k : Nat) : BitVec 16 := q.extractLsb' (4 + 16 * k) 16

/-- How many operand fields 30_encoding R101 gives an opcode; they are the first ones. -/
def operandCount (op : BitVec 4) : Nat :=
  [0, 3, 4, 1, 1, 1, 3, 5, 5, 5, 4, 4, 5, 4, 4, 3].getD op.toNat 0

/-- The font an instruction uses is well-formed (45_text R291, R300). -/
def fontReady (p : Params) : Instr → Bool
  | .drawCharFixed _ _ _ _ _ => p.fixedFont.wf
  | .drawStringFixed _ _ _ _ _ => p.fixedFont.wf
  | .drawCharGfx _ _ _ _ => p.gfxFont.wf
  | .drawStringGfx _ _ _ _ => p.gfxFont.wf
  | _ => true

/-! ## Event lists -/

/-- The 13 events of a window (41_encoder_config R182). -/
def windowEvents (p : Params) (w : Window Int) : List Event :=
  [.cmd p.regHS, .data (coordWord w.x1), .cmd p.regHE, .data (coordWord w.x2),
   .cmd p.regVS, .data (coordWord w.y1), .cmd p.regVE, .data (coordWord w.y2),
   .cmd p.regAX, .data (coordWord w.x1), .cmd p.regAY, .data (coordWord w.y1), .cmd p.regGram]

/-- The one-cell window of a plot. -/
def cellWindow (pt : Point) : Window Int := ⟨pt.x, pt.y, pt.x, pt.y⟩

/-- The 14 events of a plot on the device (42_raster_primitives R200). -/
def pixelEvents (p : Params) (c : Color) (pt : Point) : List Event :=
  windowEvents p (cellWindow pt) ++ [.data c]

/-- The events of INIT_SEQUENCE (41_encoder_config R171). -/
def initSequenceEvents : List InitStep → List Event
  | [] => []
  | .writeReg r v :: steps => .cmd r :: .data v :: initSequenceEvents steps
  | .delay ms :: steps => .delay ms :: initSequenceEvents steps

/-- `s` after the front end has sent events: they stand at the end of `E.out` and their pin actions at the
end of the wire, the DeviceState is `d`, the latched register `r`, and `E.ready` is 0 until all that now
stands on the wire has been carried. Nothing else differs. -/
def State.sent (s : State) (evs : List Event) (d : DeviceState) (r : RegAddr) : State :=
  { s with enc := { s.enc with dev := some d, latched := some r, out := s.enc.out ++ evs, ready := false }
           wire := s.wire ++ evs.flatMap framing
           owed := (s.wire ++ evs.flatMap framing).length }

/-- `s` after one diagnostic record; nothing else differs. -/
def State.logged (s : State) (code : BitVec 8) (op : BitVec 4) : State :=
  { s with enc := { s.enc with log := s.enc.log ++ [⟨code, op⟩] } }

/-- `s` after the cells of a list have been plotted on device `d`: the 14 events of each cell on the device,
in order; the window is the last such cell. With no cell on the device nothing differs. -/
def State.plotted (s : State) (d : DeviceState) (cells : List Point) (c : Color) : State :=
  let shown := cells.filter fun pt => d.contains pt.x pt.y
  match shown.getLast? with
  | none => s
  | some pt => s.sent (shown.flatMap (pixelEvents s.par c))
      { d with win := cellWindow pt, cx := pt.x, cy := pt.y } s.par.regGram

/-- `s` with the pen registers written; nothing else differs. -/
def State.withPen (s : State) (pen : Point) : State :=
  { s with enc := { s.enc with penX := some pen.x, penY := some pen.y } }

/-! ## What a drawing request paints -/

/-- The colour of a drawing request. -/
def paintColor : Instr → Option Color
  | .drawPixel _ _ color => some color
  | .fillRect _ _ _ _ color => some color
  | .drawLine _ _ _ _ color => some color
  | .drawRect _ _ _ _ color => some color
  | .drawCircle _ _ _ color => some color
  | .fillCircle _ _ _ color => some color
  | .drawCharFixed _ _ _ color _ => some color
  | .drawStringFixed _ _ color _ _ => some color
  | .drawCharGfx _ _ _ color => some color
  | .drawStringGfx _ _ color _ => some color
  | _ => none

/-- The cells a drawing request asks for, before the device clips them (42_raster_primitives R205, R210,
R215; 43_raster_circles R230, R231, R235; 45_text R293, R294, R302, R303). -/
def asksFor (p : Params) (d : DeviceState) (pt : Point) : Instr → Prop
  | .drawPixel x y _ => pt = ⟨x, y⟩
  | .fillRect x y w h _ => x ≤ pt.x ∧ pt.x ≤ x + w - 1 ∧ y ≤ pt.y ∧ pt.y ≤ y + h - 1
  | .drawLine x0 y0 x1 y1 _ => pt ∈ lineCells x0 y0 x1 y1
  | .drawRect x y w h _ => 0 < w ∧ 0 < h ∧ pt ∈ rectCells x y w h
  | .drawCircle x y r _ => d.circleAccept x y r = true ∧ pt ∈ circleCells x y r
  | .fillCircle x y r _ => d.circleAccept x y r = true ∧ pt ∈ fillCircleCells x y r
  | .drawCharFixed x y ch _ size => 1 ≤ size ∧ pt ∈ (fixedChar p.fixedFont size.toNat ⟨x, y⟩ ch).1
  | .drawStringFixed x y _ size payload =>
      1 ≤ size ∧ pt ∈ (fixedString p.fixedFont size.toNat payload ⟨x, y⟩).1
  | .drawCharGfx x y ch _ => pt ∈ (gfxChar p.gfxFont ⟨x, y⟩ ch).1
  | .drawStringGfx x y _ payload => pt ∈ (gfxString p.gfxFont x payload ⟨x, y⟩).1
  | _ => False

/-- The cells it paints: those of them on the device (42_raster_primitives R200). -/
def paints (p : Params) (d : DeviceState) (i : Instr) (pt : Point) : Prop :=
  asksFor p d pt i ∧ d.contains pt.x pt.y = true

/-! ## Data frames -/

/-- The word a Data frame completes at a decoder: its own word, or with a byte pending that byte and the
frame's first one (20_memory R81, 44_decoder R257). -/
def Dec.completed (w : Word16) (d : Dec) : Word16 :=
  match d.partialByte with
  | none => w
  | some high => high ++ (w >>> 8).setWidth 8

/-- The decoder after a Data frame that raises no fault, but for what the completed word writes: with a byte
pending before the frame, the frame's second byte is pending after it (44_decoder R257). -/
def Dec.afterData (w : Word16) (d : Dec) : Dec :=
  { d with rs := some .data, cs := false
           partialByte := d.partialByte.map fun _ => w.setWidth 8
           phase := if d.partialByte.isSome then .dataAccumulating else .commandLatched }

/-! ## Completion -/

/-- `s` after the transport has carried every pin action that stands on the wire: as many of its turns as
the wire is long (40_transport R149). -/
def State.settle (s : State) : State := State.transportTurn^[s.wire.length] s

/-- A request executed and its events carried (40_transport R153): the state in which the next one is
accepted, none where the request is refused. -/
def State.carriedOut (i : Instr) (s : State) : Option State :=
  match exec i s with
  | .next t => some t.settle
  | .fault _ => none
  | .refused _ => none

/-- Requests carried out one after another (10_state R44). -/
def State.carriedOutAll : List Instr → State → Option State
  | [], s => some s
  | i :: rest, s => (s.carriedOut i).bind (State.carriedOutAll rest)

/-! ## The invariant of every step -/

/-- The window lies on the device and the cursor in the window (10_state R41). -/
def DeviceState.OnDevice (d : DeviceState) : Prop :=
  0 ≤ d.win.x1 ∧ d.win.x1 ≤ d.cx ∧ d.cx ≤ d.win.x2 ∧ d.win.x2 ≤ d.width - 1 ∧
  0 ≤ d.win.y1 ∧ d.win.y1 ≤ d.cy ∧ d.cy ≤ d.win.y2 ∧ d.win.y2 ≤ d.height - 1

/-- The cursor lies in the window, the window on a device of either orientation, the extents in
`1..MAX_DIM` (10_state R32, R41; the bound by the larger extent is what an axis change leaves true,
70_reset R357). -/
def DeviceState.Ok (p : Params) (d : DeviceState) : Prop :=
  1 ≤ d.width ∧ d.width ≤ p.maxDim ∧ 1 ≤ d.height ∧ d.height ≤ p.maxDim ∧
  0 ≤ d.win.x1 ∧ d.win.x1 ≤ d.cx ∧ d.cx ≤ d.win.x2 ∧ d.win.x2 < max d.width d.height ∧
  0 ≤ d.win.y1 ∧ d.win.y1 ≤ d.cy ∧ d.cy ≤ d.win.y2 ∧ d.win.y2 < max d.width d.height

/-- The register the commands and resets of a stream leave latched in a receiver (44_decoder R255,
R270). -/
def streamLatched (stream : List Event) : Option RegAddr :=
  stream.foldl (fun latched ev =>
    match ev with
    | .cmd r => some r
    | .reset => none
    | _ => latched) none

/-- Every data word of the stream follows a command with no reset between (30_encoding R112, 70_reset
R359). -/
def streamOk (stream : List Event) : Prop :=
  ∀ before w after, stream = before ++ .data w :: after → (streamLatched before).isSome = true

/-- The front end: a good DeviceState; only mapped registers named (30_encoding R124); a stream in the
grammar, which leaves the latched register where `E.latched` says. -/
def Front.Ok (p : Params) (e : Front) : Prop :=
  (∀ d, e.dev = some d → d.Ok p) ∧
  (∀ r, Event.cmd r ∈ e.out → p.mapped r = true) ∧
  streamOk e.out ∧
  (e.dev.isSome = true → streamLatched e.out = e.latched ∧ e.latched.isSome = true)

/-- The decoder: both memories canonical, the framebuffer inside its grid, the mirror on recorded mapped
registers only (10_state R51, R54); the cursor in 16 bits (10_state R50); a mapped latched register
(30_encoding R126); the phase as 44_decoder R280 derives it; a pending byte only under a command. -/
def Dec.Ok (p : Params) (d : Dec) : Prop :=
  Memory.wf d.fb = true ∧ (∀ kv ∈ d.fb, kv.1 < p.fbW * p.fbH) ∧
  Memory.wf d.regs = true ∧
  (∀ kv ∈ d.regs, ∃ r : RegAddr, r.toNat = kv.1 ∧ p.mapped r = true ∧ p.unrecorded r = false) ∧
  d.cx < 65536 ∧ d.cy < 65536 ∧
  (∀ r, d.latched = some r → p.mapped r = true) ∧
  d.phase = phaseOf d.err d.latched d.partialByte ∧
  (d.partialByte.isSome = true → d.latched.isSome = true)

/-- Some pin actions of an executing request stand on the wire exactly while `E.ready` is 0 (10_state R44,
40_transport R153), so that `E.ready` returns to 1. -/
def State.ReadyOk (s : State) : Prop :=
  s.owed ≤ s.wire.length ∧ (s.enc.ready = true ↔ s.owed = 0)

/-- The invariant of the machine: both units are good, and so is the handshake of the request port. -/
def State.Inv (s : State) : Prop :=
  s.enc.Ok s.par ∧ s.dec.Ok s.par ∧ s.ReadyOk

/-! ## Agreement of the two units -/

/-- 44_decoder R281 (a) to (e): no fault and, once configured, the same window, cursor and latched register
on both sides, the entry word recorded, no pending byte. -/
def State.Agree (s : State) : Prop :=
  s.dec.err = none ∧
  ∀ d, s.enc.dev = some d →
    ((s.dec.win.x1.toNat : Int) = d.win.x1 ∧ (s.dec.win.y1.toNat : Int) = d.win.y1 ∧
     (s.dec.win.x2.toNat : Int) = d.win.x2 ∧ (s.dec.win.y2.toNat : Int) = d.win.y2) ∧
    ((s.dec.cx : Int) = d.cx ∧ (s.dec.cy : Int) = d.cy) ∧
    s.dec.latched = s.enc.latched ∧
    Memory.read s.dec.regs s.par.regEntry.toNat = some (s.par.entryWord d.rotation d.colorOrder) ∧
    s.dec.partialByte = none

/-- The framebuffer covers the device extents (70_reset R354). -/
def State.ExtentsFit (s : State) : Prop :=
  ∀ d, s.enc.dev = some d → d.width ≤ s.par.fbW ∧ d.height ≤ s.par.fbH

/-- The framebuffer covers the current window, and the cursor lies in the window (10_state R41): after an
axis change the window may be larger than the extents (70_reset R357, log 18). -/
def State.WindowFits (s : State) : Prop :=
  ∀ d, s.enc.dev = some d →
    0 ≤ d.win.x1 ∧ d.win.x1 ≤ d.cx ∧ d.cx ≤ d.win.x2 ∧ d.win.x2 < s.par.fbW ∧
    0 ≤ d.win.y1 ∧ d.win.y1 ≤ d.cy ∧ d.cy ≤ d.win.y2 ∧ d.win.y2 < s.par.fbH

/-- The framebuffer covers the GRAM words a request may emit: those of a drawing request lie on the device,
that of WRITE_DATA16 in the window last set, and no other request emits one (44_decoder R281). -/
def State.Covers (i : Instr) (s : State) : Prop :=
  ((paintColor i).isSome = true → s.ExtentsFit) ∧ ((∃ w, i = .writeData16 w) → s.WindowFits)

end Sys2Proof.Machine
end

