-- ==== Sys2Proof/Certificates/Slice0/Obligations.lean ====
section
/-! DEFINITION. The statements for the provers. -/

open Sys2Proof Sys2Proof.Machine

/-! ## Encodings -/

/-- Decoding what the encoder writes gives the instruction back, every operand at every value an encoding
admits, and whatever the decoder accepts is such an instruction (30_encoding R100 to R105, R110, R115). -/
def Obligations.DecodeEncodeRoundTrip : Prop :=
  (∀ i : Instr, i.wf = true → decode (encode i) = .ok i) ∧
  ∀ (w : PortWord) (i : Instr), decode w = .ok i → i.wf = true

/-- 30_encoding R104: the opcode alone selects the row, and every opcode selects one. -/
def Obligations.RequestDecodedByOpcodeAlone : Prop :=
  ∀ (q : BitVec 84) (P : List Byte), P.length ≤ 65535 →
    ∃ i, decode (.request q P) = .ok i ∧ opcodeOf i = some (q.setWidth 4)

/-- 30_encoding R103: two requests that differ only in fields the opcode's row leaves blank decode to the
same instruction, and the encoder writes those fields as zero. -/
def Obligations.BlankFieldsIgnored : Prop :=
  (∀ (q q' : BitVec 84) (P : List Byte), q.setWidth 4 = q'.setWidth 4 →
    (∀ k, k < operandCount (q.setWidth 4) → operandField q k = operandField q' k) →
    decode (.request q P) = decode (.request q' P)) ∧
  ∀ (i : Instr) (q : BitVec 84) (P : List Byte), encode i = .request q P →
    ∀ k, operandCount (q.setWidth 4) ≤ k → k < 5 → operandField q k = 0

/-- 30_encoding R100, R101, R102, R105: where the fields of a request stand, which operand each opcode
takes from which field and how it is read; the payload counts for the two string opcodes only, and there
only up to 65535 bytes (log 22). -/
def Obligations.OperandsReadByName : Prop :=
  ∀ (a0 a1 a2 a3 a4 : BitVec 16) (P : List Byte),
    let q : BitVec 4 → BitVec 84 := fun op => requestWord op a0 a1 a2 a3 a4
    let ch : Byte := a2.setWidth 8
    (∀ op, (q op).toNat = op.toNat + 2 ^ 4 * a0.toNat + 2 ^ 20 * a1.toNat + 2 ^ 36 * a2.toNat +
      2 ^ 52 * a3.toNat + 2 ^ 68 * a4.toNat) ∧
    decode (.request (q 0x0) P) = .ok .reserved ∧
    decode (.request (q 0x1) P) = .ok (.init a0.toInt a1.toInt a2.toInt) ∧
    decode (.request (q 0x2) P) = .ok (.setWindow a0.toInt a1.toInt a2.toInt a3.toInt) ∧
    decode (.request (q 0x3) P) = .ok (.setRotation a0.toInt) ∧
    decode (.request (q 0x4) P) = .ok (.setColorOrder (decide (a0 ≠ 0))) ∧
    decode (.request (q 0x5) P) = .ok (.writeData16 a0) ∧
    decode (.request (q 0x6) P) = .ok (.drawPixel a0.toInt a1.toInt a2) ∧
    decode (.request (q 0x7) P) = .ok (.fillRect a0.toInt a1.toInt a2.toInt a3.toInt a4) ∧
    decode (.request (q 0x8) P) = .ok (.drawLine a0.toInt a1.toInt a2.toInt a3.toInt a4) ∧
    decode (.request (q 0x9) P) = .ok (.drawRect a0.toInt a1.toInt a2.toInt a3.toInt a4) ∧
    decode (.request (q 0xA) P) = .ok (.drawCircle a0.toInt a1.toInt a2.toInt a3) ∧
    decode (.request (q 0xB) P) = .ok (.fillCircle a0.toInt a1.toInt a2.toInt a3) ∧
    decode (.request (q 0xC) P) = .ok (.drawCharFixed a0.toInt a1.toInt ch a3 a4.toInt) ∧
    (P.length ≤ 65535 →
      decode (.request (q 0xD) P) = .ok (.drawStringFixed a0.toInt a1.toInt a2 a3.toInt P)) ∧
    (65535 < P.length → decode (.request (q 0xD) P) = .error (.payloadTooLong P.length)) ∧
    decode (.request (q 0xE) P) = .ok (.drawCharGfx a0.toInt a1.toInt ch a3) ∧
    (P.length ≤ 65535 →
      decode (.request (q 0xF) P) = .ok (.drawStringGfx a0.toInt a1.toInt a2 P)) ∧
    (65535 < P.length → decode (.request (q 0xF) P) = .error (.payloadTooLong P.length))

/-- 30_encoding R110 and R115: every transaction frame and every event tag. An event's argument beside its
tag, and the refusal of one that does not fit, are the model's choice (log 8). -/
def Obligations.FramesAndEventsDecoded : Prop :=
  (∀ t : BitVec 17,
    (t.toNat < 256 → decode (.frame t) = .ok (.cmd (BitVec.ofNat 8 t.toNat))) ∧
    (256 ≤ t.toNat → t.toNat < 65536 → decode (.frame t) = .error (.commandFrameHighByte t)) ∧
    (65536 ≤ t.toNat → decode (.frame t) = .ok (.data (BitVec.ofNat 16 (t.toNat - 65536))))) ∧
  ∀ arg : Nat,
    (arg < 256 → decode (.event 0b00 arg) = .ok (.eventCmd (BitVec.ofNat 8 arg))) ∧
    (256 ≤ arg → decode (.event 0b00 arg) = .error (.eventArgument 0b00 arg)) ∧
    (arg < 65536 → decode (.event 0b01 arg) = .ok (.eventData (BitVec.ofNat 16 arg))) ∧
    (65536 ≤ arg → decode (.event 0b01 arg) = .error (.eventArgument 0b01 arg)) ∧
    decode (.event 0b10 arg) = .ok (.eventDelay arg) ∧
    (arg = 0 → decode (.event 0b11 arg) = .ok .eventReset) ∧
    (0 < arg → decode (.event 0b11 arg) = .error (.eventArgument 0b11 arg))

/-- Words written out from the encodings of 30_encoding R100, R101, R110 decode to what they stand for; the
first is the example of R100. -/
def Obligations.WrittenWordsDecode : Prop :=
  decode (.request 0x0000_0000_F800_006E_0058_6#84 []) = .ok (.drawPixel 88 110 0xF800) ∧
  decode (.request 0x0000_0000_0000_00DC_00B0_1#84 []) = .ok (.init 176 220 0) ∧
  decode (.request 0x0000_012C_012C_FFF6_FFF6_2#84 []) = .ok (.setWindow (-10) (-10) 300 300) ∧
  decode (.request 0x001F_0004_0004_FFFE_FFFE_7#84 []) = .ok (.fillRect (-2) (-2) 4 4 0x001F) ∧
  decode (.request 0x0001_FFFF_5A41_0014_000A_C#84 []) = .ok (.drawCharFixed 10 20 0x41 0xFFFF 1) ∧
  decode (.frame 0b0_00000000_00100010#17) = .ok (.cmd 0x22) ∧
  decode (.frame 0b1_1111100000000000#17) = .ok (.data 0xF800)

/-- 30_encoding R122, R123, R125: each bit of the entry word, under bit positions that are distinct and in
0..15; the default positions; the observation functions of every word, the rotation only under an injective
table, as the default is; and that they read the entry word back. -/
def Obligations.EntryWordBits : Prop :=
  (∀ (p : Params) (rot : BitVec 3) (ord : ColorOrder), p.entryBitsWf = true →
    (∀ k, (p.entryWord rot ord).getLsbD k = true ↔
      (k = p.entryOrdBit ∧ ord = .bgr) ∨ (k = p.entryId1Bit ∧ (p.entryFields rot).id1 = true) ∨
      (k = p.entryId0Bit ∧ (p.entryFields rot).id0 = true) ∨
      (k = p.entryAmBit ∧ (p.entryFields rot).am = true)) ∧
    p.ordOf (p.entryWord rot ord) = ord ∧
    ((∀ a b, p.entryFields a = p.entryFields b → a = b) →
      p.rotationOf (p.entryWord rot ord) = some rot)) ∧
  (∀ (p : Params) (w : Word16),
    p.ordOf w = (if w.getLsbD p.entryOrdBit then .bgr else .rgb) ∧
    ((∀ a b, p.entryFields a = p.entryFields b → a = b) → ∀ rot, p.rotationOf w = some rot ↔
      p.entryFields rot =
        ⟨w.getLsbD p.entryId1Bit, w.getLsbD p.entryId0Bit, w.getLsbD p.entryAmBit⟩) ∧
    ((∃ a b, a ≠ b ∧ p.entryFields a = p.entryFields b) → p.rotationOf w = none)) ∧
  (∀ a b, defaultParams.entryFields a = defaultParams.entryFields b → a = b) ∧
  defaultParams.entryOrdBit = 12 ∧ defaultParams.entryId1Bit = 5 ∧ defaultParams.entryId0Bit = 4 ∧
  defaultParams.entryAmBit = 3

/-! ## The step -/

/-- With an instruction at the head of the inputs, its port open and its bits decoding to `i`, the step is
`exec i` on the state without that input; and the state `withFetchWord` builds runs a table row's
instruction next. The one line of inputs is the model's choice (log 7, log 12). -/
def Obligations.StepRunsDecodedInstruction : Prop :=
  (∀ (s : State) (w : PortWord) (i : Instr) (rest : List Input), s.par.wf = true →
    s.inputs = .instr w :: rest → decode w = .ok i →
    ((∃ q P, w = .request q P) → s.enc.ready = true) → ((∃ t, w = .frame t) → s.midEvent = false) →
    step s = exec i { s with inputs := rest }) ∧
  ∀ (s : State) (nbits w : Nat) (i : Instr), s.par.wf = true → decodeTableWord nbits w = some i →
    step (s.withFetchWord nbits w) = exec i { s with enc := { s.enc with ready := true }, wire := [], owed := 0 }

/-- What the step refuses. 10_state R44, 70_reset R356: a request presented while `E.ready = 0`.
30_encoding R110: a frame that is no transaction. 00_scope R8, 20_memory R76, 41_encoder_config R172: a
parameter set with two equal register addresses, two equal or too large entry bit positions, an
INIT_SEQUENCE that writes REG_GRAM, or a font that is read outside its data (that both fonts belong to the
set checked at every step is DEDUCED, log 15). The model's choice: the refusal of a frame or a pin action of
another agent inside an event's pin sequence (DEDUCED from the transport's obligation 40_transport R149,
log 11), of an event argument that does not fit (DESIGN CHOICE, log 8) and of a payload over 65535 bytes
(DEDUCED, log 22). -/
def Obligations.IllFormedInputsRefused : Prop :=
  (∀ (s : State) (rest : List Input), s.par.wf = true →
    (∀ q P, s.inputs = .instr (.request q P) :: rest → s.enc.ready = false →
      step s = .refused .requestWhileBusy) ∧
    (∀ (a : PinAction) (more : List PinAction), s.wire = a :: more →
      ((∃ b, a = .selectChip b) ∨ ∃ bytes, a = .writeBytes bytes) →
      (∀ t, s.inputs = .instr (.frame t) :: rest → step s = .refused .interleavedPins) ∧
      ∀ x, s.inputs = .pin x :: rest → step s = .refused .interleavedPins) ∧
    (∀ q P why, s.inputs = .instr (.request q P) :: rest → s.enc.ready = true →
      decode (.request q P) = .error why → step s = .refused (.undecodable why)) ∧
    (∀ t why, s.inputs = .instr (.frame t) :: rest → s.midEvent = false →
      decode (.frame t) = .error why → step s = .refused (.undecodable why)) ∧
    (∀ tag arg why, s.inputs = .instr (.event tag arg) :: rest →
      decode (.event tag arg) = .error why → step s = .refused (.undecodable why))) ∧
  ∀ s : State,
    (¬ [s.par.regHS, s.par.regHE, s.par.regVS, s.par.regVE, s.par.regAX, s.par.regAY, s.par.regGram,
        s.par.regEntry].Nodup ∨
      ¬ [s.par.entryOrdBit, s.par.entryId1Bit, s.par.entryId0Bit, s.par.entryAmBit].Nodup ∨
      (∃ b ∈ [s.par.entryOrdBit, s.par.entryId1Bit, s.par.entryId0Bit, s.par.entryAmBit], 15 < b) ∨
      (∃ v, InitStep.writeReg s.par.regGram v ∈ s.par.initSequence) ∨
      s.par.fixedFont.data.length ≠
        (s.par.fixedFont.lastChar.toNat - s.par.fixedFont.firstChar.toNat + 1) * s.par.fixedFont.cellWidth ∨
      ∃ g ∈ s.par.gfxFont.glyphs,
        s.par.gfxFont.bitmap.length < g.bitmapOffset + (g.width * g.height + 7) / 8) →
    step s = .refused .illFormedParameters

/-- The transport's turn, with nothing presented, when it is scheduled, and while a requester waits
(40_transport R149, R153; log 6, log 7): it carries exactly the next pin action, and `E.ready` becomes 1
with the last one that the executing request waits for. Carried to the end, from any state in which the
request waits for nothing beyond the wire (StepKeepsTheInvariant), the wire is empty, the decoder has taken
its pin actions in order, and nothing of the front end but `E.ready` differs. -/
def Obligations.TransportCarriesTheWireInOrder : Prop :=
  (∀ (s : State) (rest : List Input), s.par.wf = true →
    (s.inputs = [] ∧ rest = [] ∨ s.inputs = .transport :: rest ∨
      s.inputs = rest ∧ s.enc.ready = false ∧ ∃ more, rest = .awaitReady :: more) →
    (s.wire = [] →
      step s = .next { s with inputs := rest, owed := 0, enc := { s.enc with ready := true } }) ∧
    ∀ a more, s.wire = a :: more →
      step s = .next { s with
        inputs := rest, wire := more, owed := s.owed - 1, dec := (s.dec.pin s.par a).1,
        result := signalled (s.dec.pin s.par a).2,
        enc := { s.enc with ready := s.enc.ready || decide (s.owed ≤ 1) } }) ∧
  ∀ s : State, s.wire ≠ [] → s.owed ≤ s.wire.length →
    ∃ r, s.settle = { s with
      dec := (Dec.pins s.par s.wire s.dec).1, wire := [], owed := 0, result := r,
      enc := { s.enc with ready := true } }

/-- The other inputs through the step: a waiting requester goes on when `E.ready = 1`, a pin action of
another agent between events (44_decoder R250), flush (R275), and a new decoder (70_reset R351, the
model's scheduling: log 7, log 19). -/
def Obligations.HostInputsReachTheDecoder : Prop :=
  ∀ (s : State) (rest : List Input), s.par.wf = true →
    (s.inputs = .awaitReady :: rest → s.enc.ready = true → step s = .next { s with inputs := rest }) ∧
    (∀ a, s.inputs = .pin a :: rest → s.midEvent = false →
      step s = .next { s with inputs := rest, dec := (s.dec.pin s.par a).1,
                              result := signalled (s.dec.pin s.par a).2 }) ∧
    (s.inputs = .flush :: rest →
      step s = .next { s with inputs := rest, dec := s.dec.flush s.par, result := .none }) ∧
    (s.inputs = .createDecoder :: rest →
      step s = .next { s with
        inputs := rest, result := .none
        dec := { rs := none, cs := false, phase := .idle, latched := none, partialByte := none,
                 win := ⟨0, 0, BitVec.ofNat 16 (s.par.fbW - 1), BitVec.ofNat 16 (s.par.fbH - 1)⟩,
                 cx := 0, cy := 0, fb := [], dirty := false, err := none, regs := [], frames := [] } })

/-- 44_decoder R278: every query of the read port, in every phase; the step result is the answer and
nothing else changes; the setters and the GRAM port are never recorded; ill-formed queries are refused. -/
def Obligations.ReadPortAnswers : Prop :=
  ∀ (s : State) (rest : List Input), s.par.wf = true →
    let ask : Query → Prop := fun q => s.inputs = .read q :: rest
    let tells : Answer → Prop := fun a => step s = .next { s with inputs := rest, result := .answer a }
    (∀ x y : Nat, x < s.par.fbW → y < s.par.fbH →
      ask (.pixel x y) → tells (.pixel (s.dec.cell s.par x y))) ∧
    (ask .fault → tells (.fault s.dec.err)) ∧
    (ask .dirty → tells (.dirty s.dec.dirty)) ∧
    (ask .window → tells (.window s.dec.win)) ∧
    (ask .cursor → tells (.cursor s.dec.cx s.dec.cy)) ∧
    (ask .latched → tells (.latched s.dec.latched)) ∧
    (ask .phase → tells (.phase s.dec.phase)) ∧
    (∀ r, s.par.mapped r = true → ask (.reg r) → tells (.reg (Memory.read s.dec.regs r.toNat))) ∧
    (∀ r, s.dec.Ok s.par → r ∈ [s.par.regHS, s.par.regHE, s.par.regVS, s.par.regVE, s.par.regAX,
      s.par.regAY, s.par.regGram] → Memory.read s.dec.regs r.toNat = none) ∧
    (ask .frames → tells (.frames s.dec.frames)) ∧
    (∀ x y : Int, (x < 0 ∨ s.par.fbW ≤ x ∨ y < 0 ∨ s.par.fbH ≤ y) →
      ask (.pixel x y) → step s = .refused (.illFormedQuery (.pixel x y))) ∧
    (∀ r, s.par.mapped r = false → ask (.reg r) → step s = .refused (.illFormedQuery (.reg r)))

/-- 10_state R58, 70_reset R350, R351: the state after reset, field by field. The parameter values, the
empty wire with nothing owed, the inputs and the result are the model's choice (log 2, log 6, log 7, log 10). -/
def Obligations.ResetStateIsPowerOn : Prop :=
  State.reset =
    { par := defaultParams
      enc := { dev := none, latched := none, penX := none, penY := none, out := [], log := [],
               ready := true }
      dec := { rs := none, cs := false, phase := .idle, latched := none, partialByte := none,
               win := ⟨0, 0, 175, 219⟩, cx := 0, cy := 0, fb := [], dirty := false, err := none,
               regs := [], frames := [] }
      wire := [], owed := 0, inputs := [], result := .none }

/-! ## Requests: configuration and addressing -/

/-- 60_exceptions R323: a request with opcode 0 is dropped with ILLEGAL_REQUEST, configured or not. -/
def Obligations.ReservedRequestDropped : Prop :=
  (∀ (q : BitVec 84) (P : List Byte), q.setWidth 4 = 0#4 → decode (.request q P) = .ok .reserved) ∧
  ∀ s : State, exec .reserved s = .next (s.logged 0x03 0x0)

/-- 60_exceptions R321: without a DeviceState every request with opcode 2 to 15 is dropped with
CONFIG_ERROR (an ill-formed font is refused first: TextNeedsWellFormedFont), and INIT and RESERVED never
log that code. -/
def Obligations.UnconfiguredRequestDropped : Prop :=
  (∀ (i : Instr) (op : BitVec 4) (s : State), opcodeOf i = some op → 2 ≤ op.toNat →
    fontReady s.par i = true → s.enc.dev = none → exec i s = .next (s.logged 0x01 op)) ∧
  ∀ (i : Instr) (op : BitVec 4) (s t : State), opcodeOf i = some op → op.toNat < 2 →
    exec i s = .next t → ∀ rec ∈ t.enc.log.drop s.enc.log.length, rec.code ≠ 0x01

/-- 41_encoder_config R171, R173: an accepted INIT, from any state. -/
def Obligations.InitRunsTheSequence : Prop :=
  ∀ (W H rot : Int) (s : State), 0 ≤ rot → rot ≤ 7 → 1 ≤ W → W ≤ s.par.maxDim → 1 ≤ H →
    H ≤ s.par.maxDim →
    exec (.init W H rot) s = .next (s.sent
      ([.reset] ++ initSequenceEvents s.par.initSequence ++
        [.cmd s.par.regEntry, .data (s.par.entryWord (BitVec.ofInt 3 rot) s.par.colorOrderReset)] ++
        [.cmd s.par.regHS, .data 0, .cmd s.par.regHE, .data (BitVec.ofInt 16 (W - 1)),
         .cmd s.par.regVS, .data 0, .cmd s.par.regVE, .data (BitVec.ofInt 16 (H - 1)),
         .cmd s.par.regAX, .data 0, .cmd s.par.regAY, .data 0, .cmd s.par.regGram])
      { width := W, height := H, rotation := BitVec.ofInt 3 rot, colorOrder := s.par.colorOrderReset,
        win := ⟨0, 0, W - 1, H - 1⟩, cx := 0, cy := 0 }
      s.par.regGram)

/-- 60_exceptions R322: every front-end range error of the requests that draw no text, on a configured
device (INIT: on any), is one record and nothing else. -/
def Obligations.RangeErrorsDropped : Prop :=
  ∀ (s : State) (d : DeviceState),
    (∀ W H rot : Int, (rot < 0 ∨ 7 < rot ∨ W < 1 ∨ s.par.maxDim < W ∨ H < 1 ∨ s.par.maxDim < H) →
      exec (.init W H rot) s = .next (s.logged 0x02 0x1)) ∧
    (s.enc.dev = some d →
      (∀ rot : Int, (rot < 0 ∨ 7 < rot) → exec (.setRotation rot) s = .next (s.logged 0x02 0x3)) ∧
      (∀ (x y : Int) (c : Color), (x < 0 ∨ d.width ≤ x ∨ y < 0 ∨ d.height ≤ y) →
        exec (.drawPixel x y c) s = .next (s.logged 0x02 0x6)) ∧
      (∀ (x y w h : Int) (c : Color),
        (w ≤ 0 ∨ h ≤ 0 ∨ min (x + w - 1) (d.width - 1) < max x 0 ∨
          min (y + h - 1) (d.height - 1) < max y 0) →
        exec (.fillRect x y w h c) s = .next (s.logged 0x02 0x7)) ∧
      (∀ (x y w h : Int) (c : Color), (w ≤ 0 ∨ h ≤ 0) →
        exec (.drawRect x y w h c) s = .next (s.logged 0x02 0x9)) ∧
      (∀ (x y r : Int) (c : Color),
        (r < 1 ∨ x - r < 0 ∨ y - r < 0 ∨ d.width - 1 < x + r ∨ d.height - 1 < y + r) →
        exec (.drawCircle x y r c) s = .next (s.logged 0x02 0xA) ∧
        exec (.fillCircle x y r c) s = .next (s.logged 0x02 0xB)))

/-- 41_encoder_config R180, R181, R182: SET_WINDOW orders, clamps, and sends 13 events, whatever its
operands. -/
def Obligations.SetWindowSendsNormalisedWindow : Prop :=
  ∀ (x1 y1 x2 y2 : Int) (s : State) (d : DeviceState), s.enc.dev = some d →
    let a := max 0 (min (min x1 x2) (d.width - 1))
    let b := max 0 (min (min y1 y2) (d.height - 1))
    let c := max 0 (min (max x1 x2) (d.width - 1))
    let e := max 0 (min (max y1 y2) (d.height - 1))
    exec (.setWindow x1 y1 x2 y2) s = .next (s.sent
      [.cmd s.par.regHS, .data (BitVec.ofInt 16 a), .cmd s.par.regHE, .data (BitVec.ofInt 16 c),
       .cmd s.par.regVS, .data (BitVec.ofInt 16 b), .cmd s.par.regVE, .data (BitVec.ofInt 16 e),
       .cmd s.par.regAX, .data (BitVec.ofInt 16 a), .cmd s.par.regAY, .data (BitVec.ofInt 16 b),
       .cmd s.par.regGram]
      { d with win := ⟨a, b, c, e⟩, cx := a, cy := b } s.par.regGram)

/-- 41_encoder_config R181: the normalised window lies on the device, and a window already ordered and on
the device is left as it is. -/
def Obligations.NormalisedWindowIsOnDevice : Prop :=
  ∀ (d : DeviceState) (x1 y1 x2 y2 : Int), 1 ≤ d.width → 1 ≤ d.height →
    let w := d.normWindow x1 y1 x2 y2
    (0 ≤ w.x1 ∧ w.x1 ≤ w.x2 ∧ w.x2 ≤ d.width - 1 ∧ 0 ≤ w.y1 ∧ w.y1 ≤ w.y2 ∧ w.y2 ≤ d.height - 1) ∧
    (0 ≤ x1 → x1 ≤ x2 → x2 ≤ d.width - 1 → 0 ≤ y1 → y1 ≤ y2 → y2 ≤ d.height - 1 →
      w = ⟨x1, y1, x2, y2⟩) ∧
    d.normWindow x2 y1 x1 y2 = w ∧ d.normWindow x1 y2 x2 y1 = w

/-- 41_encoder_config R185, R186: an in-range rotation that differs from the current one; two axis changes
restore the extents. -/
def Obligations.SetRotationWritesEntryWord : Prop :=
  ∀ (rot : Int) (s : State) (d : DeviceState), s.par.wf = true → s.enc.dev = some d → 0 ≤ rot → rot ≤ 7 →
    BitVec.ofInt 3 rot ≠ d.rotation →
    let new : BitVec 3 := BitVec.ofInt 3 rot
    exec (.setRotation rot) s = .next (s.sent
      [.cmd s.par.regEntry, .data (s.par.entryWord new d.colorOrder)]
      { d with rotation := new
               width := if d.rotation.getLsbD 2 = new.getLsbD 2 then d.width else d.height
               height := if d.rotation.getLsbD 2 = new.getLsbD 2 then d.height else d.width }
      s.par.regEntry) ∧
    ∀ back, back.getLsbD 2 = d.rotation.getLsbD 2 →
      ((d.rotate new).rotate back).width = d.width ∧ ((d.rotate new).rotate back).height = d.height

/-- 41_encoder_config R190: a colour order that differs from the current one. -/
def Obligations.SetColorOrderWritesEntryWord : Prop :=
  ∀ (isRgb : Bool) (s : State) (d : DeviceState), s.par.wf = true → s.enc.dev = some d →
    let ord : ColorOrder := if isRgb then .rgb else .bgr
    ord ≠ d.colorOrder →
    exec (.setColorOrder isRgb) s = .next (s.sent
      [.cmd s.par.regEntry, .data (s.par.entryWord d.rotation ord)] { d with colorOrder := ord }
      s.par.regEntry)

/-- 41_encoder_config R187: setting the current rotation or colour order changes nothing at all, and the
range check comes first. -/
def Obligations.ConfigurationRequestsIdempotent : Prop :=
  ∀ (s : State) (d : DeviceState), s.enc.dev = some d →
    (∀ rot : Int, 0 ≤ rot → rot ≤ 7 → BitVec.ofInt 3 rot = d.rotation →
      exec (.setRotation rot) s = .next s) ∧
    (∀ isRgb : Bool, (isRgb = true ↔ d.colorOrder = .rgb) → exec (.setColorOrder isRgb) s = .next s) ∧
    ∀ rot : Int, (rot < 0 ∨ 7 < rot) → exec (.setRotation rot) s = .next (s.logged 0x02 0x3)

/-- 41_encoder_config R193, 40_transport R142: WRITE_DATA16 reopens GRAM write mode if need be, sends the
word, and moves the cursor by the addressing rule. -/
def Obligations.WriteData16SendsOneWord : Prop :=
  ∀ (w : Word16) (s : State) (d : DeviceState), s.enc.dev = some d →
    let d' : DeviceState := { d with
      cx := if d.cx + 1 ≤ d.win.x2 then d.cx + 1 else d.win.x1
      cy := if d.cx + 1 ≤ d.win.x2 then d.cy else if d.cy + 1 ≤ d.win.y2 then d.cy + 1 else d.win.y1 }
    exec (.writeData16 w) s = .next (s.sent
      (if s.enc.latched = some s.par.regGram then [.data w] else [.cmd s.par.regGram, .data w]) d'
      s.par.regGram)

/-- 40_transport R151: as many advances as the window has cells bring the cursor back to the window's
origin, and fewer visit the cells row by row. -/
def Obligations.CursorFillsTheWindowRowMajor : Prop :=
  ∀ (w : Window Int) (n : Nat), w.x1 ≤ w.x2 → w.y1 ≤ w.y2 →
    let cols := (w.x2 - w.x1 + 1).toNat
    let at_ := (fun c : Int × Int => advance w c.1 c.2)^[n] (w.x1, w.y1)
    (n < cols * (w.y2 - w.y1 + 1).toNat → at_ = (w.x1 + (n % cols : Nat), w.y1 + (n / cols : Nat))) ∧
    (n = cols * (w.y2 - w.y1 + 1).toNat → at_ = (w.x1, w.y1))

/-- 10_state R41: every request but a SET_ROTATION that changes the axis leaves the window on the device and
the cursor in the window. -/
def Obligations.RequestsKeepWindowOnDevice : Prop :=
  ∀ (i : Instr) (s t : State), (∃ op, opcodeOf i = some op) → s.par.wf = true →
    (∀ d, s.enc.dev = some d → d.OnDevice) →
    (∀ d rot, i = .setRotation rot → s.enc.dev = some d →
      (BitVec.ofInt 3 rot).getLsbD 2 = d.rotation.getLsbD 2) →
    exec i s = .next t → ∀ d, t.enc.dev = some d → d.OnDevice

/-! ## Requests: drawing -/

/-- 42_raster_primitives R201: DRAW_PIXEL on the device is a one-cell window and one word. -/
def Obligations.DrawPixelSendsOneCell : Prop :=
  ∀ (x y : Int) (c : Color) (s : State) (d : DeviceState), s.enc.dev = some d → 0 ≤ x → x < d.width →
    0 ≤ y → y < d.height →
    exec (.drawPixel x y c) s = .next (s.sent
      [.cmd s.par.regHS, .data (BitVec.ofInt 16 x), .cmd s.par.regHE, .data (BitVec.ofInt 16 x),
       .cmd s.par.regVS, .data (BitVec.ofInt 16 y), .cmd s.par.regVE, .data (BitVec.ofInt 16 y),
       .cmd s.par.regAX, .data (BitVec.ofInt 16 x), .cmd s.par.regAY, .data (BitVec.ofInt 16 y),
       .cmd s.par.regGram, .data c]
      { d with win := ⟨x, y, x, y⟩, cx := x, cy := y } s.par.regGram)

/-- 42_raster_primitives R205, R206: FILL_RECT of a rectangle that meets the device is one window and one
word for each clipped cell, and the cursor ends at the window's origin. Its case `w = h = 1`, the same 14
events as DRAW_PIXEL of that cell, is the model's reading (DEDUCED, log 26): R206's corner case says "a
different trace: no second window", against its own pseudocode and its count `13 + N`. -/
def Obligations.FillRectSendsOneBurst : Prop :=
  ∀ (x y w h : Int) (c : Color) (s : State) (d : DeviceState), s.enc.dev = some d →
    let x1 := max x 0
    let y1 := max y 0
    let x2 := min (x + w - 1) (d.width - 1)
    let y2 := min (y + h - 1) (d.height - 1)
    0 < w → 0 < h → x1 ≤ x2 → y1 ≤ y2 →
    exec (.fillRect x y w h c) s = .next (s.sent
      (windowEvents s.par ⟨x1, y1, x2, y2⟩ ++
        List.replicate ((x2 - x1 + 1) * (y2 - y1 + 1)).toNat (.data c))
      { d with win := ⟨x1, y1, x2, y2⟩, cx := x1, cy := y1 } s.par.regGram)

/-- 42_raster_primitives R205: the clip is the set of cells of the rectangle on the device. -/
def Obligations.ClipRectIsIntersection : Prop :=
  ∀ (d : DeviceState) (x y w h : Int) (pt : Point),
    (∃ c, d.clipRect x y w h = some c ∧ c.x1 ≤ pt.x ∧ pt.x ≤ c.x2 ∧ c.y1 ≤ pt.y ∧ pt.y ≤ c.y2) ↔
    x ≤ pt.x ∧ pt.x ≤ x + w - 1 ∧ y ≤ pt.y ∧ pt.y ≤ y + h - 1 ∧ d.contains pt.x pt.y = true

/-- 42_raster_primitives R200, R211, R215; 43_raster_circles R231, R235: DRAW_LINE, DRAW_RECT and the
circles plot their cells in order, off-device cells dropped without a record. A rectangle is its four
edges; a circle the four axis points and the eight reflections of each iteration; a filled circle the
central row and the four spans of each iteration. -/
def Obligations.ShapesPlotTheirCells : Prop :=
  (∀ (s : State) (d : DeviceState) (c : Color), s.enc.dev = some d →
    (∀ x0 y0 x1 y1 : Int,
      exec (.drawLine x0 y0 x1 y1 c) s = .next (s.plotted d (lineCells x0 y0 x1 y1) c)) ∧
    (∀ x y w h : Int, 0 < w → 0 < h →
      exec (.drawRect x y w h c) s = .next (s.plotted d (rectCells x y w h) c)) ∧
    ∀ x y r : Int, 1 ≤ r → 0 ≤ x - r → 0 ≤ y - r → x + r ≤ d.width - 1 → y + r ≤ d.height - 1 →
      exec (.drawCircle x y r c) s = .next (s.plotted d (circleCells x y r) c) ∧
      exec (.fillCircle x y r c) s = .next (s.plotted d (fillCircleCells x y r) c)) ∧
  (∀ x y w h : Int, rectCells x y w h =
    lineCells x y (x + w - 1) y ++ lineCells (x + w - 1) y (x + w - 1) (y + h - 1) ++
      lineCells (x + w - 1) (y + h - 1) x (y + h - 1) ++ lineCells x (y + h - 1) x y) ∧
  ∀ x y r : Int,
    circleCells x y r = [⟨x, y + r⟩, ⟨x, y - r⟩, ⟨x + r, y⟩, ⟨x - r, y⟩] ++
      ((circleIterations r).flatMap fun m =>
        [⟨x + m.x, y + m.y⟩, ⟨x - m.x, y + m.y⟩, ⟨x + m.x, y - m.y⟩, ⟨x - m.x, y - m.y⟩,
         ⟨x + m.y, y + m.x⟩, ⟨x - m.y, y + m.x⟩, ⟨x + m.y, y - m.x⟩, ⟨x - m.y, y - m.x⟩]) ∧
    fillCircleCells x y r = lineCells (x - r) y (x + r) y ++
      (circleIterations r).flatMap fun m =>
        lineCells (x - m.y) (y + m.x) (x + m.y) (y + m.x) ++
        lineCells (x - m.y) (y - m.x) (x + m.y) (y - m.x) ++
        lineCells (x - m.x) (y + m.y) (x + m.x) (y + m.y) ++
        lineCells (x - m.x) (y - m.y) (x + m.x) (y - m.y)

/-- 42_raster_primitives R210: LineCore makes one plot for each step of the major axis. -/
def Obligations.LineHasMajorAxisLength : Prop :=
  ∀ x0 y0 x1 y1 : Int,
    (lineCells x0 y0 x1 y1).length = (max |x1 - x0| |y1 - y0|).toNat + 1

/-- 42_raster_primitives R210: after `k` columns the line has risen by the `j` that keeps the error
`dx div 2 - k*dy + j*dx` in `0..dx-1`, in the form of a flat and of a steep line. -/
def Obligations.LineFollowsTheErrorTerm : Prop :=
  ∀ (x0 y0 x1 y1 : Int) (k : Nat), x0 ≤ x1 → |y1 - y0| ≤ x1 - x0 → (k : Int) ≤ x1 - x0 →
    ∃ j : Int,
      0 ≤ (x1 - x0) / 2 - k * |y1 - y0| + j * (x1 - x0) ∧
      (x1 - x0) / 2 - k * |y1 - y0| + j * (x1 - x0) < max (x1 - x0) 1 ∧
      (lineCells x0 y0 x1 y1)[k]? = some ⟨x0 + k, y0 + (if y0 < y1 then 1 else -1) * j⟩ ∧
      (|y1 - y0| < x1 - x0 →
        (lineCells y0 x0 y1 x1)[k]? = some ⟨y0 + (if y0 < y1 then 1 else -1) * j, x0 + k⟩)

/-- 42_raster_primitives R212: a line drawn from either end is the same plots in the same order, so the
request has the same effect. -/
def Obligations.LineDirectionSymmetric : Prop :=
  ∀ (x0 y0 x1 y1 : Int) (c : Color) (s : State),
    lineCells x0 y0 x1 y1 = lineCells x1 y1 x0 y0 ∧
    exec (.drawLine x0 y0 x1 y1 c) s = exec (.drawLine x1 y1 x0 y0 c) s

/-- 42_raster_primitives R215: the plots of DRAW_RECT are the border cells of the rectangle. -/
def Obligations.RectangleOutlineIsItsBorder : Prop :=
  ∀ (x y w h : Int) (pt : Point), 0 < w → 0 < h →
    (pt ∈ rectCells x y w h ↔
      (x ≤ pt.x ∧ pt.x ≤ x + w - 1 ∧ (pt.y = y ∨ pt.y = y + h - 1)) ∨
      (y ≤ pt.y ∧ pt.y ≤ y + h - 1 ∧ (pt.x = x ∨ pt.x = x + w - 1)))

/-- 43_raster_circles R231: iteration `k` of the circle stands at x = k + 1, y falls by one exactly when
`x^2 + y^2 - y >= r^2` for the new x, and the loop ends with the first x that is not below y. -/
def Obligations.CircleIterationsFollowTheMidpoint : Prop :=
  ∀ r : Int, 1 ≤ r →
    ((circleIterations r)[0]? = some ⟨1, if 1 + r * r - r ≥ r * r then r - 1 else r⟩) ∧
    (∀ (k : Nat) (p q : Point), (circleIterations r)[k]? = some p →
      (circleIterations r)[k + 1]? = some q →
      p.x = k + 1 ∧ p.x < p.y ∧ q.x = p.x + 1 ∧
      q.y = if q.x * q.x + p.y * p.y - p.y ≥ r * r then p.y - 1 else p.y) ∧
    ∀ p, (circleIterations r).getLast? = some p → p.y ≤ p.x

/-- 43_raster_circles R230, R237: every plot of an accepted circle is on the device, and the outline is
`4 + 8k` plots for `k` iterations. -/
def Obligations.AcceptedCirclesNeverClip : Prop :=
  ∀ (d : DeviceState) (x y r : Int), d.circleAccept x y r = true →
    (∀ pt ∈ circleCells x y r, d.contains pt.x pt.y = true) ∧
    (∀ pt ∈ fillCircleCells x y r, d.contains pt.x pt.y = true) ∧
    (circleCells x y r).length = 4 + 8 * (circleIterations r).length

/-- 43_raster_circles R232: the outline is invariant under exchanging and negating the offsets. -/
def Obligations.CircleHasEightSymmetries : Prop :=
  ∀ cx cy r a b : Int, (⟨cx + a, cy + b⟩ : Point) ∈ circleCells cx cy r →
    (⟨cx + b, cy + a⟩ : Point) ∈ circleCells cx cy r ∧
    (⟨cx - a, cy + b⟩ : Point) ∈ circleCells cx cy r ∧
    (⟨cx + a, cy - b⟩ : Point) ∈ circleCells cx cy r

/-- 43_raster_circles R236: in every row the filled circle is the run of cells between the leftmost and the
rightmost cell of the outline. -/
def Obligations.FilledCircleIsRowHullOfOutline : Prop :=
  ∀ (cx cy r : Int) (pt : Point), 1 ≤ r →
    (pt ∈ fillCircleCells cx cy r ↔
      ∃ a b : Int, (⟨a, pt.y⟩ : Point) ∈ circleCells cx cy r ∧ (⟨b, pt.y⟩ : Point) ∈ circleCells cx cy r ∧
        a ≤ pt.x ∧ pt.x ≤ b)

/-! ## Requests: text -/

/-- 45_text R293, R294, R302, R303, R306: the four text requests plot their cells and leave the pen; a size
below 1 is dropped and leaves the pen. -/
def Obligations.TextRequestsPlotAndMoveThePen : Prop :=
  ∀ (x y size : Int) (ch : Byte) (c : Color) (P : List Byte) (s : State) (d : DeviceState),
    s.enc.dev = some d →
    (s.par.fixedFont.wf = true →
      (1 ≤ size →
        exec (.drawCharFixed x y ch c size) s = .next
          ((s.plotted d (fixedChar s.par.fixedFont size.toNat ⟨x, y⟩ ch).1 c).withPen
            (fixedChar s.par.fixedFont size.toNat ⟨x, y⟩ ch).2) ∧
        exec (.drawStringFixed x y c size P) s = .next
          ((s.plotted d (fixedString s.par.fixedFont size.toNat P ⟨x, y⟩).1 c).withPen
            (fixedString s.par.fixedFont size.toNat P ⟨x, y⟩).2)) ∧
      (size < 1 →
        exec (.drawCharFixed x y ch c size) s = .next (s.logged 0x02 0xC) ∧
        exec (.drawStringFixed x y c size P) s = .next (s.logged 0x02 0xD))) ∧
    (s.par.gfxFont.wf = true →
      exec (.drawCharGfx x y ch c) s = .next
        ((s.plotted d (gfxChar s.par.gfxFont ⟨x, y⟩ ch).1 c).withPen
          (gfxChar s.par.gfxFont ⟨x, y⟩ ch).2) ∧
      exec (.drawStringGfx x y c P) s = .next
        ((s.plotted d (gfxString s.par.gfxFont x P ⟨x, y⟩).1 c).withPen
          (gfxString s.par.gfxFont x P ⟨x, y⟩).2))

/-- 20_memory R76, 45_text R291, R300: a text request whose font is ill-formed is refused, in every state.
That the meaning makes this check too, and before its prologue, is DEDUCED (log 15). -/
def Obligations.TextNeedsWellFormedFont : Prop :=
  ∀ (x y size : Int) (ch : Byte) (c : Color) (P : List Byte) (s : State),
    (s.par.fixedFont.data.length ≠
        (s.par.fixedFont.lastChar.toNat - s.par.fixedFont.firstChar.toNat + 1) * s.par.fixedFont.cellWidth →
      exec (.drawCharFixed x y ch c size) s = .refused .illFormedFont ∧
      exec (.drawStringFixed x y c size P) s = .refused .illFormedFont) ∧
    ((∃ g ∈ s.par.gfxFont.glyphs,
        s.par.gfxFont.bitmap.length < g.bitmapOffset + (g.width * g.height + 7) / 8) →
      exec (.drawCharGfx x y ch c) s = .refused .illFormedFont ∧
      exec (.drawStringGfx x y c P) s = .refused .illFormedFont)

/-- 45_text R292, R293: the plots of a fixed-cell character in order: columns outer, rows inner, for each set
bit (bit `7 - j` of byte `g * cellWidth + i` for column `i` and row `j`) its `size x size` block row-major;
and the same as a set of cells. The pen moves by the scaled advance, and not at all for a character outside
the font. -/
def Obligations.FixedGlyphCells : Prop :=
  ∀ (f : FixedFont) (size : Nat) (pen : Point) (ch : Byte), f.wf = true →
    let g := ch.toNat - f.firstChar.toNat
    (f.firstChar.toNat ≤ ch.toNat → ch.toNat ≤ f.lastChar.toNat →
      (fixedChar f size pen ch).1 =
        ((List.range f.cellWidth).flatMap fun i => (List.range f.cellHeight).flatMap fun j =>
          if (f.data[g * f.cellWidth + i]?.getD 0).getLsbD (7 - j) then
            (List.range size).flatMap fun (dy : Nat) => (List.range size).map fun (dx : Nat) =>
              (⟨pen.x + i * size + dx, pen.y + j * size + dy⟩ : Point)
          else []) ∧
      (∀ pt : Point, pt ∈ (fixedChar f size pen ch).1 ↔
        ∃ (i j dx dy : Nat) (b : Byte), i < f.cellWidth ∧ j < f.cellHeight ∧ dx < size ∧ dy < size ∧
          f.data[g * f.cellWidth + i]? = some b ∧ b.getLsbD (7 - j) = true ∧
          pt = ⟨pen.x + i * size + dx, pen.y + j * size + dy⟩) ∧
      (fixedChar f size pen ch).2 = ⟨pen.x + (f.cellWidth + f.gap) * size, pen.y⟩) ∧
    (ch.toNat < f.firstChar.toNat ∨ f.lastChar.toNat < ch.toNat → fixedChar f size pen ch = ([], pen))

/-- 45_text R301, R302: the plots of a proportional character in order, rows outer and columns inner, one
for each set bit, numbered through the glyph without restarting at a row, at the glyph's offset from the
pen; and the same as a set of cells. The pen moves by the glyph's advance, and not at all for a character
outside the font. -/
def Obligations.GfxGlyphCells : Prop :=
  ∀ (f : GfxFont) (pen : Point) (ch : Byte), f.wf = true →
    (f.first.toNat ≤ ch.toNat → ch.toNat ≤ f.last.toNat →
      ∃ g, f.glyphs[ch.toNat - f.first.toNat]? = some g ∧
        (gfxChar f pen ch).1 =
          ((List.range g.height).flatMap fun j => (List.range g.width).flatMap fun i =>
            if (f.bitmap[g.bitmapOffset + (j * g.width + i) / 8]?.getD 0).getLsbD
                (7 - (j * g.width + i) % 8) then
              [(⟨pen.x + g.xOffset + i, pen.y + g.yOffset + j⟩ : Point)]
            else []) ∧
        (∀ pt : Point, pt ∈ (gfxChar f pen ch).1 ↔
          ∃ (i j : Nat) (b : Byte), i < g.width ∧ j < g.height ∧
            f.bitmap[g.bitmapOffset + (j * g.width + i) / 8]? = some b ∧
            b.getLsbD (7 - (j * g.width + i) % 8) = true ∧
            pt = ⟨pen.x + g.xOffset + i, pen.y + g.yOffset + j⟩) ∧
        (gfxChar f pen ch).2 = ⟨pen.x + g.xAdvance, pen.y⟩) ∧
    (ch.toNat < f.first.toNat ∨ f.last.toNat < ch.toNat → gfxChar f pen ch = ([], pen))

/-- 45_text R294, R303: a string is drawn character by character, its parts one after the other, from the
pen that each leaves, and the pen after it. In the fixed path every byte is a character; in the
proportional path each 0x0A draws nothing, returns to the string's column and goes down one line, so the
lines of a string are drawn one below the other. -/
def Obligations.StringsMoveThePen : Prop :=
  (∀ (f : FixedFont) (size : Nat) (P Q : List Byte) (ch : Byte) (pen : Point),
    fixedString f size [] pen = ([], pen) ∧ fixedString f size [ch] pen = fixedChar f size pen ch ∧
    fixedString f size (P ++ Q) pen =
      ((fixedString f size P pen).1 ++ (fixedString f size Q (fixedString f size P pen).2).1,
       (fixedString f size Q (fixedString f size P pen).2).2) ∧
    (fixedString f size P pen).2 =
      ⟨pen.x + ((f.cellWidth + f.gap) * size *
          (P.countP fun ch => decide (f.firstChar.toNat ≤ ch.toNat ∧ ch.toNat ≤ f.lastChar.toNat)) : Nat),
        pen.y⟩) ∧
  ∀ (f : GfxFont) (x : Int) (P Q : List Byte) (ch : Byte) (pen : Point),
    let adv : Byte → Nat := fun ch =>
      if f.first.toNat ≤ ch.toNat ∧ ch.toNat ≤ f.last.toNat then
        (f.glyphs[ch.toNat - f.first.toNat]?.map (·.xAdvance)).getD 0
      else 0
    gfxString f x [] pen = ([], pen) ∧
    gfxString f x [0x0A] pen = ([], ⟨x, pen.y + f.yAdvance⟩) ∧
    (ch ≠ 0x0A → gfxString f x [ch] pen = gfxChar f pen ch) ∧
    gfxString f x (P ++ Q) pen =
      ((gfxString f x P pen).1 ++ (gfxString f x Q (gfxString f x P pen).2).1,
       (gfxString f x Q (gfxString f x P pen).2).2) ∧
    (gfxString f x (P ++ 0x0A :: Q) pen).1 =
      (gfxString f x P pen).1 ++ (gfxString f x Q ⟨x, (gfxString f x P pen).2.y + f.yAdvance⟩).1 ∧
    (gfxString f x P pen).2.y = pen.y + (f.yAdvance * P.count 0x0A : Nat) ∧
    (0x0A ∉ P → (gfxString f x P pen).2.x = pen.x + ((P.map adv).sum : Nat)) ∧
    (0x0A ∉ Q → (gfxString f x (P ++ 0x0A :: Q) pen).2.x = x + ((Q.map adv).sum : Nat))

/-! ## Events and frames -/

/-- 40_transport R146, R147: the pin sequences of a command and of a data word, and that an event given to
the transport follows what stands on the wire and changes nothing else. A reset is one pulse and a delay
changes no pin (R148). That the event rows are given to the transport, and that no executing request waits
for them, is the model's choice (log 8). -/
def Obligations.EventsAreFramedOnTheWire : Prop :=
  ∀ (r : RegAddr) (w : Word16) (ms : Nat) (s : State),
    exec (.eventCmd r) s = .next { s with wire := s.wire ++
      [.selectMode .cmd, .selectChip true, .writeBytes [r], .selectChip false] } ∧
    exec (.eventData w) s = .next { s with wire := s.wire ++
      [.selectMode .data, .selectChip true,
       .writeBytes [BitVec.ofNat 8 (w.toNat / 256), BitVec.ofNat 8 (w.toNat % 256)],
       .selectChip false] } ∧
    exec (.eventDelay ms) s = .next { s with wire := s.wire ++ [.delay ms] } ∧
    exec .eventReset s = .next { s with wire := s.wire ++ [.resetPulse true true] } ∧
    framing (.cmd r) = [.selectMode .cmd, .selectChip true, .writeBytes [r], .selectChip false] ∧
    framing (.data w) = [.selectMode .data, .selectChip true,
      .writeBytes [BitVec.ofNat 8 (w.toNat / 256), BitVec.ofNat 8 (w.toNat % 256)], .selectChip false]

/-- 44_decoder R255, R256, R254: a Cmd frame at the decoder, for a mapped register, for an unmapped one, and
at a faulted decoder. Delivering the frame whole is the model's reading (log 9). -/
def Obligations.CmdFrameLatchesRegister : Prop :=
  ∀ (r : RegAddr) (s : State),
    (s.dec.err = none → s.par.mapped r = true →
      exec (.cmd r) s = .next { s with
        dec := { s.dec with rs := some .cmd, cs := false, latched := some r, partialByte := none,
                            phase := .commandLatched }
        result := .none }) ∧
    (s.dec.err = none → s.par.mapped r = false →
      exec (.cmd r) s = .next { s with
        dec := { s.dec with rs := some .cmd, cs := true, err := some (.unmappedRegister r),
                            phase := .faulted }
        result := .fault (.unmappedRegister r) }) ∧
    (s.dec.err.isSome = true → exec (.cmd r) s = .next { s with result := .none })

/-- 44_decoder R257, R258, R260, R262, R263, R264: a Data frame to no register, to each setter and to a
recorded register. With no byte pending the frame's word is the completed word; with a byte pending the
frame's first byte completes the pending word and its second one waits (`Dec.completed`, `Dec.afterData`).
Delivering the frame whole is the model's reading (log 9). -/
def Obligations.DataFrameReachesLatchedRegister : Prop :=
  ∀ (w : Word16) (s : State), s.par.wf = true →
    let p := s.par
    let v := s.dec.completed w
    let d := s.dec.afterData w
    let gives : Dec → Prop := fun d' => exec (.data w) s = .next { s with dec := d', result := .none }
    (s.dec.err.isSome = true → exec (.data w) s = .next { s with result := .none }) ∧
    (s.dec.err = none → s.dec.latched = none →
      exec (.data w) s = .next { s with
        dec := { s.dec with rs := some .data, cs := true, err := some .dataWithoutCommand,
                            phase := .faulted }
        result := .fault .dataWithoutCommand }) ∧
    (s.dec.err = none →
      (s.dec.latched = some p.regHS → gives { d with win := { d.win with x1 := v } }) ∧
      (s.dec.latched = some p.regHE → gives { d with win := { d.win with x2 := v } }) ∧
      (s.dec.latched = some p.regVS → gives { d with win := { d.win with y1 := v } }) ∧
      (s.dec.latched = some p.regVE → gives { d with win := { d.win with y2 := v } }) ∧
      (s.dec.latched = some p.regAX → gives { d with cx := v.toNat }) ∧
      (s.dec.latched = some p.regAY → gives { d with cy := v.toNat }) ∧
      ∀ r, s.dec.latched = some r → p.unrecorded r = false →
        gives { d with regs := Memory.write d.regs r.toNat v } ∧
        (∀ a, Memory.read (Memory.write d.regs r.toNat v) a =
          if a = r.toNat then some v else Memory.read s.dec.regs a))

/-- 44_decoder R257, R261, 20_memory R74: a Data frame to the GRAM port: the cell under the cursor takes the
completed word, every other cell keeps its value, the dirty flag rises when the value changes, the cursor
advances; or the two faults, in their order, with nothing written. Delivering the frame whole is the
model's reading (log 9), and so is that no byte is pending after the fault (DEDUCED, unsafe, log 17). -/
def Obligations.DataFrameWritesOnePixel : Prop :=
  ∀ (w : Word16) (s : State), s.dec.err = none → s.dec.latched = some s.par.regGram →
    let d := s.dec
    let v := d.completed w
    let inWindow := d.win.x1.toNat ≤ d.cx ∧ d.cx ≤ d.win.x2.toNat ∧ d.win.y1.toNat ≤ d.cy ∧
      d.cy ≤ d.win.y2.toNat
    let stopped : ProtocolError → Prop := fun e =>
      exec (.data w) s = .next { s with
        dec := { d with rs := some .data, cs := true, partialByte := none, err := some e, phase := .faulted }
        result := .fault e }
    (¬ inWindow → stopped (.cursorOutsideWindow d.cx d.cy)) ∧
    (inWindow → ¬ (d.cx < s.par.fbW ∧ d.cy < s.par.fbH) → stopped (.pixelOutsideFramebuffer d.cx d.cy)) ∧
    (inWindow → d.cx < s.par.fbW → d.cy < s.par.fbH →
      ∃ fb, exec (.data w) s = .next { s with
          dec := { d.afterData w with
            fb := fb
            dirty := d.dirty || decide (d.cell s.par d.cx d.cy ≠ some v)
            cx := if d.cx + 1 ≤ d.win.x2.toNat then d.cx + 1 else d.win.x1.toNat
            cy := if d.cx + 1 ≤ d.win.x2.toNat then d.cy
                  else if d.cy + 1 ≤ d.win.y2.toNat then d.cy + 1 else d.win.y1.toNat }
          result := .none } ∧
        ∀ x y, x < s.par.fbW → y < s.par.fbH →
          Memory.read fb (cellIndex s.par x y) =
            if x = d.cx ∧ y = d.cy then some v else d.cell s.par x y)

/-! ## Decoder inputs -/

/-- 44_decoder R251, R252, R271, R270: the two select lines, the delay, and the hardware reset, the same
for both its arguments. -/
def Obligations.SelectLinesDelayAndReset : Prop :=
  ∀ (p : Params) (d : Dec), d.err = none →
    (∀ m, d.pin p (.selectMode m) = ({ d with rs := some m }, none)) ∧
    (∀ a, d.pin p (.selectChip a) = ({ d with cs := a }, none)) ∧
    (∀ ms, d.pin p (.delay ms) = (d, none)) ∧
    ∀ l w, d.pin p (.resetPulse l w) =
      ({ d with latched := none, partialByte := none, phase := .idle,
                win := ⟨0, 0, BitVec.ofNat 16 (p.fbW - 1), BitVec.ofNat 16 (p.fbH - 1)⟩,
                cx := 0, cy := 0, regs := [] }, none) ∧
      ∀ a, Memory.read (d.pin p (.resetPulse l w)).1.regs a = none

/-- 44_decoder R253, R255, R256, R258: one strobe, by the first case that applies. -/
def Obligations.StrobeChecksInOrder : Prop :=
  ∀ (p : Params) (bytes : List Byte) (d : Dec), d.err = none →
    let stopped : ProtocolError → Prop := fun e =>
      d.pin p (.writeBytes bytes) = ({ d with err := some e, phase := .faulted }, some e)
    (d.cs = false → d.pin p (.writeBytes bytes) = (d, none)) ∧
    (d.cs = true → d.rs = none → stopped .modeUnset) ∧
    (d.cs = true → d.rs = some .cmd →
      (bytes.length ≠ 1 → stopped (.badCommandLength bytes.length)) ∧
      ∀ r, bytes = [r] →
        (p.mapped r = false → stopped (.unmappedRegister r)) ∧
        (p.mapped r = true → d.pin p (.writeBytes bytes) =
          ({ d with latched := some r, partialByte := none, phase := .commandLatched }, none))) ∧
    (d.cs = true → d.rs = some .data → d.latched = none → stopped .dataWithoutCommand)

/-- 44_decoder R257, 20_memory R81: data bytes pair by arrival, so a strobe cut in two anywhere is the same
as the whole strobe; a fault in the first part keeps the rest from being taken. -/
def Obligations.DataStrobesPairByArrival : Prop :=
  ∀ (p : Params) (b b' : List Byte) (d : Dec), d.err = none → d.cs = true → d.rs = some .data →
    d.latched.isSome = true →
    (∀ d1, d.pin p (.writeBytes b) = (d1, none) →
      d.pin p (.writeBytes (b ++ b')) = d1.pin p (.writeBytes b')) ∧
    (∀ d1 e, d.pin p (.writeBytes b) = (d1, some e) → d.pin p (.writeBytes (b ++ b')) = (d1, some e)) ∧
    d.pin p (.writeBytes []) = (d, none)

/-- 44_decoder R254: a faulted decoder ignores every pin action and flush and raises nothing, and read still
answers every well-formed query. So no step changes a faulted decoder but the one that creates a new
decoder, and that one clears the fault. -/
def Obligations.FaultedDecoderIgnoresInputs : Prop :=
  (∀ (p : Params) (d : Dec), d.err.isSome = true →
    (∀ a, d.pin p a = (d, none)) ∧ d.flush p = d ∧ d.answer p .fault = some (.fault d.err) ∧
    ∀ q, d.answer p q = none ↔
      (∃ x y, q = .pixel x y ∧ (x < 0 ∨ p.fbW ≤ x ∨ y < 0 ∨ p.fbH ≤ y)) ∨
      ∃ r, q = .reg r ∧ p.mapped r = false) ∧
  ∀ s t : State, s.dec.err.isSome = true → step s = .next t →
    ((∀ rest, s.inputs ≠ .createDecoder :: rest) → t.dec = s.dec) ∧
    ∀ rest, s.inputs = .createDecoder :: rest → t.dec.err = none

/-- 60_exceptions R328: whichever pin action raises a fault, the fault is recorded and signalled and the
phase is Faulted; without a signal no fault is recorded. A command strobe or a mode fault changes nothing
else. -/
def Obligations.FaultEntryRecordsAndSignals : Prop :=
  ∀ (p : Params) (a : PinAction) (d : Dec), d.err = none →
    (∀ e, (d.pin p a).2 = some e → (d.pin p a).1.err = some e ∧ (d.pin p a).1.phase = .faulted) ∧
    ((d.pin p a).2 = none → (d.pin p a).1.err = none) ∧
    (∀ e, (d.pin p a).2 = some e → d.rs ≠ some .data →
      (d.pin p a).1 = { d with err := some e, phase := .faulted })

/-- 44_decoder R275, R276: flush sends one full frame, row-major, an unwritten cell as 0, exactly when the
decoder is dirty and not faulted, and then clears the dirty flag. -/
def Obligations.FlushIsDirtyGated : Prop :=
  ∀ (p : Params) (d : Dec),
    (d.err.isSome = true ∨ d.dirty = false → d.flush p = d) ∧
    (d.err = none → d.dirty = true →
      ∃ f, d.flush p = { d with frames := d.frames ++ [f], dirty := false } ∧
        f.tag = .frame ∧ f.width = p.fbW ∧ f.height = p.fbH ∧ f.pixels.length = p.fbW * p.fbH ∧
        f.payload = Config.frameEncoding f.pixels ∧
        ∀ x y, x < p.fbW → y < p.fbH →
          f.pixels[y * p.fbW + x]? = some ((d.cell p x y).getD 0)) ∧
    (d.flush p).flush p = d.flush p

/-! ## Rules over all instructions and steps -/

/-- 60_exceptions R324: a request appends at most one record, and one that logs has changed nothing else. -/
def Obligations.LoggingRequestsChangeNothingElse : Prop :=
  ∀ (i : Instr) (op : BitVec 4) (s t : State), opcodeOf i = some op → exec i s = .next t →
    t.enc.log = s.enc.log ∨
      ∃ code, (code = 0x01 ∨ code = 0x02 ∨ code = 0x03) ∧ t = s.logged code op

/-- 10_state R30, 45_text R306, 40_transport R140, R153: a request reaches the decoder through its events
alone, puts the pin sequence of each event it emits on the wire, in order, clears `E.ready` until all that
then stands on the wire has been carried, and writes the pen only if it draws text. The model's choice: a
transaction frame is delivered to the back end alone (DEDUCED, log 9), an event given to the transport is
not appended to `E.out` and no request waits for it (DESIGN CHOICE, log 8), so both change nothing of the
front end. -/
def Obligations.UnitsMeetOnTheWireAlone : Prop :=
  ∀ (i : Instr) (s t : State), exec i s = .next t →
    ((∃ op, opcodeOf i = some op) →
      t.dec = s.dec ∧ t.par = s.par ∧ t.inputs = s.inputs ∧ t.result = s.result ∧
      (∃ evs, t.enc.out = s.enc.out ++ evs ∧ t.wire = s.wire ++ evs.flatMap framing ∧
        (evs = [] → t.enc.ready = s.enc.ready ∧ t.owed = s.owed) ∧
        (evs ≠ [] → t.enc.ready = false ∧ t.owed = t.wire.length)) ∧
      ((∀ op, opcodeOf i = some op → op.toNat < 0xC) →
        t.enc.penX = s.enc.penX ∧ t.enc.penY = s.enc.penY)) ∧
    (opcodeOf i = none →
      t.enc = s.enc ∧ t.par = s.par ∧ t.inputs = s.inputs ∧ t.owed = s.owed)

/-- 10_state R35, R55, R56: no step changes a parameter, and the three output streams only grow, the frames
while the decoder is not replaced. -/
def Obligations.StreamsOnlyGrow : Prop :=
  ∀ s t : State, step s = .next t →
    t.par = s.par ∧ s.enc.out <+: t.enc.out ∧ s.enc.log <+: t.enc.log ∧
    ((∀ rest, s.inputs ≠ .createDecoder :: rest) → s.dec.frames <+: t.dec.frames)

/-- The state after reset meets the invariant of every step. It rests on the parameter values the model
chose for State.reset (DESIGN CHOICE, log 2). -/
def Obligations.ResetMeetsTheInvariant : Prop := State.reset.Inv

/-- From every state that meets the invariant a step leads to one that meets it: extents, window and cursor
(10_state R32, R37), only mapped registers named and the stream in the grammar (30_encoding R112, R124),
canonical memories inside their ranges (10_state R51, R54), the phase as a function of the other fields
(44_decoder R280), a mapped latched register (30_encoding R126), and `E.ready = 0` exactly
while some pin action of a request still stands on the wire (10_state R44, 40_transport R153). -/
def Obligations.StepKeepsTheInvariant : Prop :=
  ∀ s t : State, s.Inv → step s = .next t → t.Inv

/-! ## The two units together -/

/-- 44_decoder R281: every request, carried to its end, keeps the agreement of the two units, where the
framebuffer covers the GRAM words it may emit: the extents for a drawing request (70_reset R354), the
window for WRITE_DATA16 (70_reset R357; DEDUCED, log 18), nothing for a request that emits none. And an
accepted INIT brings a decoder without a fault into agreement from any state. -/
def Obligations.RequestsKeepAgreement : Prop :=
  (∀ (i : Instr) (s t : State), (∃ op, opcodeOf i = some op) → i.wf = true → s.par.wf = true →
    s.wire = [] → s.Agree → s.Covers i → exec i s = .next t → t.settle.Agree) ∧
  ∀ (W H rot : Int) (s : State), s.par.wf = true → (Instr.init W H rot).wf = true → s.wire = [] →
    s.dec.err = none → 0 ≤ rot → rot ≤ 7 → 1 ≤ W → W ≤ s.par.maxDim → 1 ≤ H → H ≤ s.par.maxDim →
    ∃ t, exec (.init W H rot) s = .next t ∧ t.settle.Agree

/-- 42_raster_primitives R200, R207, 45_text R305: a drawing request, carried to its end, leaves exactly the
cells it paints holding its colour, every other cell of the mirror as it was, the register mirror and the
frames as they were, and raises the dirty flag exactly when some cell changed. -/
def Obligations.DrawingPaintsExactlyItsCells : Prop :=
  ∀ (i : Instr) (c : Color) (d : DeviceState) (s t : State), paintColor i = some c → i.wf = true →
    s.par.wf = true → s.wire = [] → s.Agree → s.ExtentsFit → s.enc.dev = some d → exec i s = .next t →
    (∀ x y : Nat, x < s.par.fbW → y < s.par.fbH →
      (paints s.par d i ⟨x, y⟩ → t.settle.dec.cell s.par x y = some c) ∧
      (¬ paints s.par d i ⟨x, y⟩ → t.settle.dec.cell s.par x y = s.dec.cell s.par x y)) ∧
    t.settle.dec.regs = s.dec.regs ∧ t.settle.dec.frames = s.dec.frames ∧
    (t.settle.dec.dirty = true ↔ s.dec.dirty = true ∨
      ∃ x y : Nat, x < s.par.fbW ∧ y < s.par.fbH ∧
        t.settle.dec.cell s.par x y ≠ s.dec.cell s.par x y)

/-- 41_encoder_config R183, R193, 40_transport R151: SET_WINDOW and then exactly as many WRITE_DATA16 as the
window has cells fill it row by row, touch no other cell, and leave the cursor at its origin. -/
def Obligations.WordStreamFillsTheWindow : Prop :=
  ∀ (x1 y1 x2 y2 : Int) (words : List Word16) (d : DeviceState) (s : State),
    (Instr.setWindow x1 y1 x2 y2).wf = true → s.par.wf = true → s.wire = [] → s.Agree → s.ExtentsFit →
    s.enc.dev = some d →
    let w := d.normWindow x1 y1 x2 y2
    let cols := (w.x2 - w.x1 + 1).toNat
    words.length = cols * (w.y2 - w.y1 + 1).toNat →
    ∃ t d', s.carriedOutAll (.setWindow x1 y1 x2 y2 :: words.map .writeData16) = some t ∧
      t.Agree ∧ t.enc.dev = some d' ∧ d'.win = w ∧ d'.cx = w.x1 ∧ d'.cy = w.y1 ∧
      ∀ x y : Nat, x < s.par.fbW → y < s.par.fbH →
        (w.x1 ≤ x → x ≤ w.x2 → w.y1 ≤ y → y ≤ w.y2 →
          t.dec.cell s.par x y = words[(y - w.y1.toNat) * cols + (x - w.x1.toNat)]?) ∧
        (¬ (w.x1 ≤ x ∧ x ≤ w.x2 ∧ w.y1 ≤ y ∧ y ≤ w.y2) → t.dec.cell s.par x y = s.dec.cell s.par x y)
end

