-- ==== Sys2Proof/Laws/Memory.lean ====
section
/-! SUPPORT. The laws of the cell memory: a read after a write, and the canonical form, which every memory
operation keeps and the reset memories have. -/

namespace Sys2Proof.Machine

@[simp] theorem Memory.read_nil (a : Nat) : Memory.read [] a = none := rfl

@[simp] theorem Memory.wf_nil : Memory.wf [] = true := rfl

theorem Memory.wf_cons {k : Nat} {v : Word16} {rest : Memory} :
    Memory.wf ((k, v) :: rest) = true ↔ (∀ kv ∈ rest.head?, k < kv.1) ∧ Memory.wf rest = true := by
  cases rest with
  | nil => simp [Memory.wf]
  | cons kv rest => simp [Memory.wf]

/-- The canonical form as Mathlib's pairwise order of the addresses. -/
theorem Memory.wf_iff_pairwise (m : Memory) :
    Memory.wf m = true ↔ m.Pairwise fun a b => a.1 < b.1 := by
  induction m with
  | nil => simp
  | cons kv rest ih =>
    obtain ⟨k, v⟩ := kv
    rw [Memory.wf_cons, List.pairwise_cons, ih]
    constructor
    · rintro ⟨h, p⟩
      refine ⟨fun b hb => ?_, p⟩
      cases rest with
      | nil => simp at hb
      | cons c rest =>
        have hc : k < c.1 := h c (by simp)
        rcases List.mem_cons.mp hb with rfl | hb
        · exact hc
        · exact lt_trans hc (List.rel_of_pairwise_cons p hb)
    · rintro ⟨h, p⟩
      exact ⟨fun b hb => h b (List.mem_of_mem_head? hb), p⟩

/-- A read after a write: the written address gives the value, every other address what it gave. -/
theorem Memory.read_write (m : Memory) (a b : Nat) (w : Word16) :
    Memory.read (Memory.write m a w) b = if b = a then some w else Memory.read m b := by
  induction m with
  | nil => simp [Memory.write, Memory.read]
  | cons kv rest ih =>
    obtain ⟨k, v⟩ := kv
    by_cases h1 : a < k
    · simp [Memory.write, Memory.read, h1]
    · by_cases h2 : a = k
      · subst h2
        by_cases h3 : b = a <;> simp [Memory.write, Memory.read, h3]
      · by_cases h3 : b = k
        · subst h3
          have h4 : ¬ b = a := fun h => h2 h.symm
          simp [Memory.write, Memory.read, h1, h2, h4]
        · simp [Memory.write, Memory.read, h1, h2, h3, ih]

@[simp] theorem Memory.read_write_same (m : Memory) (a : Nat) (w : Word16) :
    Memory.read (Memory.write m a w) a = some w := by simp [Memory.read_write]

theorem Memory.read_write_other {a b : Nat} (m : Memory) (w : Word16) (h : b ≠ a) :
    Memory.read (Memory.write m a w) b = Memory.read m b := by simp [Memory.read_write, h]

/-- The entries of a written memory: the new one, or an old one at another address. -/
theorem Memory.mem_write {m : Memory} {a : Nat} {w : Word16} {kv : Nat × Word16}
    (h : kv ∈ Memory.write m a w) : kv = (a, w) ∨ kv ∈ m := by
  induction m with
  | nil => simpa [Memory.write] using h
  | cons c rest ih =>
    obtain ⟨k, v⟩ := c
    unfold Memory.write at h
    split_ifs at h with h1 h2
    · simpa using h
    · subst h2
      rcases List.mem_cons.mp h with h | h
      · exact .inl h
      · exact .inr (List.mem_cons_of_mem _ h)
    · rcases List.mem_cons.mp h with h | h
      · exact .inr (by simp [h])
      · exact (ih h).imp id (List.mem_cons_of_mem _)

/-- A write keeps the canonical form. -/
theorem Memory.write_wf {m : Memory} (a : Nat) (w : Word16) (h : Memory.wf m = true) :
    Memory.wf (Memory.write m a w) = true := by
  induction m with
  | nil => rfl
  | cons c rest ih =>
    obtain ⟨k, v⟩ := c
    have hp := (Memory.wf_iff_pairwise _).mp h
    have hrest := (Memory.wf_cons.mp h).2
    unfold Memory.write
    split_ifs with h1 h2
    · exact Memory.wf_cons.mpr ⟨by simpa using h1, h⟩
    · exact Memory.wf_cons.mpr ⟨(Memory.wf_cons.mp h).1, hrest⟩
    · refine Memory.wf_cons.mpr ⟨fun kv hkv => ?_, ih hrest⟩
      rcases Memory.mem_write (List.mem_of_mem_head? hkv) with rfl | hm
      · exact lt_of_le_of_ne (Nat.le_of_not_lt h1) fun e => h2 e.symm
      · exact List.rel_of_pairwise_cons hp hm

/-- The framebuffer write keeps the canonical form. -/
theorem Dec.fbWrite_wf (p : Params) (x y : Nat) (v : Word16) (d : Dec) (h : Memory.wf d.fb = true) :
    Memory.wf (d.fbWrite p x y v).fb = true := Memory.write_wf _ _ h

/-- Cells of the grid have different addresses. -/
theorem cellIndex_inj {p : Params} {x y x' y' : Nat} (hx : x < p.fbW) (hx' : x' < p.fbW) :
    cellIndex p x y = cellIndex p x' y' ↔ x = x' ∧ y = y' := by
  constructor
  · intro h
    have hw : 0 < p.fbW := Nat.lt_of_le_of_lt (Nat.zero_le _) hx
    have hm := congrArg (· % p.fbW) h
    have hd := congrArg (· / p.fbW) h
    simp only [cellIndex, Nat.mul_add_mod_self_right] at hm hd
    rw [Nat.mod_eq_of_lt hx, Nat.mod_eq_of_lt hx'] at hm
    subst hm
    exact ⟨rfl, Nat.eq_of_mul_eq_mul_right hw (by simp only [cellIndex] at h; omega)⟩
  · rintro ⟨rfl, rfl⟩; rfl

/-- A cell of the grid lies below the grid's size. -/
theorem cellIndex_lt {p : Params} {x y : Nat} (hx : x < p.fbW) (hy : y < p.fbH) :
    cellIndex p x y < p.fbW * p.fbH := by
  have h : (y + 1) * p.fbW ≤ p.fbH * p.fbW := Nat.mul_le_mul_right _ hy
  have e : (y + 1) * p.fbW = y * p.fbW + p.fbW := by ring
  simp only [cellIndex, Nat.mul_comm p.fbW p.fbH]
  omega

/-- `FBWrite` writes its cell and no other (20_memory R74). -/
theorem Dec.fbWrite_cell {p : Params} {x y a b : Nat} (v : Word16) (d : Dec) (hx : x < p.fbW)
    (ha : a < p.fbW) :
    (d.fbWrite p x y v).cell p a b = if a = x ∧ b = y then some v else d.cell p a b := by
  simp only [Dec.fbWrite, Dec.cell, Memory.read_write, cellIndex_inj ha hx]

/-- The memories of a new decoder are canonical. -/
theorem Dec.created_wf (p : Params) :
    Memory.wf (Dec.created p).fb = true ∧ Memory.wf (Dec.created p).regs = true := ⟨rfl, rfl⟩

/-- The memories at reset are canonical. -/
theorem State.reset_memory_wf :
    Memory.wf State.reset.dec.fb = true ∧ Memory.wf State.reset.dec.regs = true := Dec.created_wf _

end Sys2Proof.Machine
end

