-- ==== Sys2Proof/Laws/State.lean ====
section
/-! SUPPORT. The small lemmas of the state updates: one for each field an update leaves or writes, each
true by unfolding the update once. -/

namespace Sys2Proof.Machine

/-! ## carry -/

@[simp] theorem State.carry_par (ev : Event) (s : State) : (s.carry ev).par = s.par := rfl
@[simp] theorem State.carry_dec (ev : Event) (s : State) : (s.carry ev).dec = s.dec := rfl
@[simp] theorem State.carry_wire (ev : Event) (s : State) : (s.carry ev).wire = s.wire ++ framing ev := rfl
@[simp] theorem State.carry_owed (ev : Event) (s : State) : (s.carry ev).owed = s.owed := rfl
@[simp] theorem State.carry_inputs (ev : Event) (s : State) : (s.carry ev).inputs = s.inputs := rfl
@[simp] theorem State.carry_result (ev : Event) (s : State) : (s.carry ev).result = s.result := rfl
@[simp] theorem State.carry_dev (ev : Event) (s : State) : (s.carry ev).enc.dev = s.enc.dev := rfl
@[simp] theorem State.carry_latched (ev : Event) (s : State) : (s.carry ev).enc.latched = s.enc.latched := rfl
@[simp] theorem State.carry_penX (ev : Event) (s : State) : (s.carry ev).enc.penX = s.enc.penX := rfl
@[simp] theorem State.carry_penY (ev : Event) (s : State) : (s.carry ev).enc.penY = s.enc.penY := rfl
@[simp] theorem State.carry_out (ev : Event) (s : State) : (s.carry ev).enc.out = s.enc.out := rfl
@[simp] theorem State.carry_log (ev : Event) (s : State) : (s.carry ev).enc.log = s.enc.log := rfl
@[simp] theorem State.carry_ready (ev : Event) (s : State) : (s.carry ev).enc.ready = s.enc.ready := rfl

/-! ## emit -/

@[simp] theorem State.emit_par (ev : Event) (s : State) : (s.emit ev).par = s.par := rfl
@[simp] theorem State.emit_dec (ev : Event) (s : State) : (s.emit ev).dec = s.dec := rfl
@[simp] theorem State.emit_wire (ev : Event) (s : State) : (s.emit ev).wire = s.wire ++ framing ev := rfl
@[simp] theorem State.emit_owed (ev : Event) (s : State) :
    (s.emit ev).owed = (s.wire ++ framing ev).length := rfl
@[simp] theorem State.emit_inputs (ev : Event) (s : State) : (s.emit ev).inputs = s.inputs := rfl
@[simp] theorem State.emit_result (ev : Event) (s : State) : (s.emit ev).result = s.result := rfl
@[simp] theorem State.emit_dev (ev : Event) (s : State) : (s.emit ev).enc.dev = s.enc.dev := rfl
@[simp] theorem State.emit_latched (ev : Event) (s : State) : (s.emit ev).enc.latched = s.enc.latched := rfl
@[simp] theorem State.emit_penX (ev : Event) (s : State) : (s.emit ev).enc.penX = s.enc.penX := rfl
@[simp] theorem State.emit_penY (ev : Event) (s : State) : (s.emit ev).enc.penY = s.enc.penY := rfl
@[simp] theorem State.emit_out (ev : Event) (s : State) : (s.emit ev).enc.out = s.enc.out ++ [ev] := rfl
@[simp] theorem State.emit_log (ev : Event) (s : State) : (s.emit ev).enc.log = s.enc.log := rfl
@[simp] theorem State.emit_ready (ev : Event) (s : State) : (s.emit ev).enc.ready = false := rfl

/-! ## logDiag -/

@[simp] theorem State.logDiag_par (code : BitVec 8) (op : BitVec 4) (s : State) :
    (s.logDiag code op).par = s.par := rfl
@[simp] theorem State.logDiag_dec (code : BitVec 8) (op : BitVec 4) (s : State) :
    (s.logDiag code op).dec = s.dec := rfl
@[simp] theorem State.logDiag_wire (code : BitVec 8) (op : BitVec 4) (s : State) :
    (s.logDiag code op).wire = s.wire := rfl
@[simp] theorem State.logDiag_owed (code : BitVec 8) (op : BitVec 4) (s : State) :
    (s.logDiag code op).owed = s.owed := rfl
@[simp] theorem State.logDiag_inputs (code : BitVec 8) (op : BitVec 4) (s : State) :
    (s.logDiag code op).inputs = s.inputs := rfl
@[simp] theorem State.logDiag_result (code : BitVec 8) (op : BitVec 4) (s : State) :
    (s.logDiag code op).result = s.result := rfl
@[simp] theorem State.logDiag_dev (code : BitVec 8) (op : BitVec 4) (s : State) :
    (s.logDiag code op).enc.dev = s.enc.dev := rfl
@[simp] theorem State.logDiag_latched (code : BitVec 8) (op : BitVec 4) (s : State) :
    (s.logDiag code op).enc.latched = s.enc.latched := rfl
@[simp] theorem State.logDiag_penX (code : BitVec 8) (op : BitVec 4) (s : State) :
    (s.logDiag code op).enc.penX = s.enc.penX := rfl
@[simp] theorem State.logDiag_penY (code : BitVec 8) (op : BitVec 4) (s : State) :
    (s.logDiag code op).enc.penY = s.enc.penY := rfl
@[simp] theorem State.logDiag_out (code : BitVec 8) (op : BitVec 4) (s : State) :
    (s.logDiag code op).enc.out = s.enc.out := rfl
@[simp] theorem State.logDiag_log (code : BitVec 8) (op : BitVec 4) (s : State) :
    (s.logDiag code op).enc.log = s.enc.log ++ [⟨code, op⟩] := rfl
@[simp] theorem State.logDiag_ready (code : BitVec 8) (op : BitVec 4) (s : State) :
    (s.logDiag code op).enc.ready = s.enc.ready := rfl

/-! ## drop -/

@[simp] theorem State.drop_par (code : BitVec 8) (op : BitVec 4) (s : State) :
    (s.drop code op).par = s.par := rfl
@[simp] theorem State.drop_dec (code : BitVec 8) (op : BitVec 4) (s : State) :
    (s.drop code op).dec = s.dec := rfl
@[simp] theorem State.drop_wire (code : BitVec 8) (op : BitVec 4) (s : State) :
    (s.drop code op).wire = s.wire := rfl
@[simp] theorem State.drop_owed (code : BitVec 8) (op : BitVec 4) (s : State) :
    (s.drop code op).owed = s.owed := rfl
@[simp] theorem State.drop_inputs (code : BitVec 8) (op : BitVec 4) (s : State) :
    (s.drop code op).inputs = s.inputs := rfl
@[simp] theorem State.drop_result (code : BitVec 8) (op : BitVec 4) (s : State) :
    (s.drop code op).result = s.result := rfl
@[simp] theorem State.drop_dev (code : BitVec 8) (op : BitVec 4) (s : State) :
    (s.drop code op).enc.dev = s.enc.dev := rfl
@[simp] theorem State.drop_latched (code : BitVec 8) (op : BitVec 4) (s : State) :
    (s.drop code op).enc.latched = s.enc.latched := rfl
@[simp] theorem State.drop_penX (code : BitVec 8) (op : BitVec 4) (s : State) :
    (s.drop code op).enc.penX = s.enc.penX := rfl
@[simp] theorem State.drop_penY (code : BitVec 8) (op : BitVec 4) (s : State) :
    (s.drop code op).enc.penY = s.enc.penY := rfl
@[simp] theorem State.drop_out (code : BitVec 8) (op : BitVec 4) (s : State) :
    (s.drop code op).enc.out = s.enc.out := rfl
@[simp] theorem State.drop_log (code : BitVec 8) (op : BitVec 4) (s : State) :
    (s.drop code op).enc.log = s.enc.log ++ [⟨code, op⟩] := rfl
@[simp] theorem State.drop_ready (code : BitVec 8) (op : BitVec 4) (s : State) :
    (s.drop code op).enc.ready = s.enc.ready := rfl

/-! ## emitCmd -/

@[simp] theorem State.emitCmd_par (r : RegAddr) (s : State) : (s.emitCmd r).par = s.par := rfl
@[simp] theorem State.emitCmd_dec (r : RegAddr) (s : State) : (s.emitCmd r).dec = s.dec := rfl
@[simp] theorem State.emitCmd_wire (r : RegAddr) (s : State) :
    (s.emitCmd r).wire = s.wire ++ framing (.cmd r) := rfl
@[simp] theorem State.emitCmd_owed (r : RegAddr) (s : State) :
    (s.emitCmd r).owed = (s.wire ++ framing (.cmd r)).length := rfl
@[simp] theorem State.emitCmd_inputs (r : RegAddr) (s : State) : (s.emitCmd r).inputs = s.inputs := rfl
@[simp] theorem State.emitCmd_result (r : RegAddr) (s : State) : (s.emitCmd r).result = s.result := rfl
@[simp] theorem State.emitCmd_dev (r : RegAddr) (s : State) : (s.emitCmd r).enc.dev = s.enc.dev := rfl
@[simp] theorem State.emitCmd_latched (r : RegAddr) (s : State) : (s.emitCmd r).enc.latched = some r := rfl
@[simp] theorem State.emitCmd_penX (r : RegAddr) (s : State) : (s.emitCmd r).enc.penX = s.enc.penX := rfl
@[simp] theorem State.emitCmd_penY (r : RegAddr) (s : State) : (s.emitCmd r).enc.penY = s.enc.penY := rfl
@[simp] theorem State.emitCmd_out (r : RegAddr) (s : State) :
    (s.emitCmd r).enc.out = s.enc.out ++ [.cmd r] := rfl
@[simp] theorem State.emitCmd_log (r : RegAddr) (s : State) : (s.emitCmd r).enc.log = s.enc.log := rfl
@[simp] theorem State.emitCmd_ready (r : RegAddr) (s : State) : (s.emitCmd r).enc.ready = false := rfl

/-! ## setPen -/

@[simp] theorem State.setPen_par (pen : Point) (s : State) : (s.setPen pen).par = s.par := rfl
@[simp] theorem State.setPen_dec (pen : Point) (s : State) : (s.setPen pen).dec = s.dec := rfl
@[simp] theorem State.setPen_wire (pen : Point) (s : State) : (s.setPen pen).wire = s.wire := rfl
@[simp] theorem State.setPen_owed (pen : Point) (s : State) : (s.setPen pen).owed = s.owed := rfl
@[simp] theorem State.setPen_inputs (pen : Point) (s : State) : (s.setPen pen).inputs = s.inputs := rfl
@[simp] theorem State.setPen_result (pen : Point) (s : State) : (s.setPen pen).result = s.result := rfl
@[simp] theorem State.setPen_dev (pen : Point) (s : State) : (s.setPen pen).enc.dev = s.enc.dev := rfl
@[simp] theorem State.setPen_latched (pen : Point) (s : State) :
    (s.setPen pen).enc.latched = s.enc.latched := rfl
@[simp] theorem State.setPen_penX (pen : Point) (s : State) : (s.setPen pen).enc.penX = some pen.x := rfl
@[simp] theorem State.setPen_penY (pen : Point) (s : State) : (s.setPen pen).enc.penY = some pen.y := rfl
@[simp] theorem State.setPen_out (pen : Point) (s : State) : (s.setPen pen).enc.out = s.enc.out := rfl
@[simp] theorem State.setPen_log (pen : Point) (s : State) : (s.setPen pen).enc.log = s.enc.log := rfl
@[simp] theorem State.setPen_ready (pen : Point) (s : State) : (s.setPen pen).enc.ready = s.enc.ready := rfl

/-! ## setDevice -/

@[simp] theorem State.setDevice_par (d : DeviceState) (s : State) : (s.setDevice d).par = s.par := rfl
@[simp] theorem State.setDevice_dec (d : DeviceState) (s : State) : (s.setDevice d).dec = s.dec := rfl
@[simp] theorem State.setDevice_wire (d : DeviceState) (s : State) : (s.setDevice d).wire = s.wire := rfl
@[simp] theorem State.setDevice_owed (d : DeviceState) (s : State) : (s.setDevice d).owed = s.owed := rfl
@[simp] theorem State.setDevice_inputs (d : DeviceState) (s : State) :
    (s.setDevice d).inputs = s.inputs := rfl
@[simp] theorem State.setDevice_result (d : DeviceState) (s : State) :
    (s.setDevice d).result = s.result := rfl
@[simp] theorem State.setDevice_dev (d : DeviceState) (s : State) : (s.setDevice d).enc.dev = some d := rfl
@[simp] theorem State.setDevice_latched (d : DeviceState) (s : State) :
    (s.setDevice d).enc.latched = s.enc.latched := rfl
@[simp] theorem State.setDevice_penX (d : DeviceState) (s : State) :
    (s.setDevice d).enc.penX = s.enc.penX := rfl
@[simp] theorem State.setDevice_penY (d : DeviceState) (s : State) :
    (s.setDevice d).enc.penY = s.enc.penY := rfl
@[simp] theorem State.setDevice_out (d : DeviceState) (s : State) : (s.setDevice d).enc.out = s.enc.out := rfl
@[simp] theorem State.setDevice_log (d : DeviceState) (s : State) : (s.setDevice d).enc.log = s.enc.log := rfl
@[simp] theorem State.setDevice_ready (d : DeviceState) (s : State) :
    (s.setDevice d).enc.ready = s.enc.ready := rfl

/-! ## createDecoder -/

@[simp] theorem State.createDecoder_par (s : State) : (s.createDecoder).par = s.par := rfl
@[simp] theorem State.createDecoder_dec (s : State) : (s.createDecoder).dec = Dec.created s.par := rfl
@[simp] theorem State.createDecoder_wire (s : State) : (s.createDecoder).wire = s.wire := rfl
@[simp] theorem State.createDecoder_owed (s : State) : (s.createDecoder).owed = s.owed := rfl
@[simp] theorem State.createDecoder_inputs (s : State) : (s.createDecoder).inputs = s.inputs := rfl
@[simp] theorem State.createDecoder_result (s : State) : (s.createDecoder).result = .none := rfl
@[simp] theorem State.createDecoder_dev (s : State) : (s.createDecoder).enc.dev = s.enc.dev := rfl
@[simp] theorem State.createDecoder_latched (s : State) : (s.createDecoder).enc.latched = s.enc.latched := rfl
@[simp] theorem State.createDecoder_penX (s : State) : (s.createDecoder).enc.penX = s.enc.penX := rfl
@[simp] theorem State.createDecoder_penY (s : State) : (s.createDecoder).enc.penY = s.enc.penY := rfl
@[simp] theorem State.createDecoder_out (s : State) : (s.createDecoder).enc.out = s.enc.out := rfl
@[simp] theorem State.createDecoder_log (s : State) : (s.createDecoder).enc.log = s.enc.log := rfl
@[simp] theorem State.createDecoder_ready (s : State) : (s.createDecoder).enc.ready = s.enc.ready := rfl

/-! ## pinInput -/

@[simp] theorem State.pinInput_par (a : PinAction) (s : State) : (s.pinInput a).par = s.par := rfl
@[simp] theorem State.pinInput_dec (a : PinAction) (s : State) :
    (s.pinInput a).dec = (s.dec.pin s.par a).1 := rfl
@[simp] theorem State.pinInput_wire (a : PinAction) (s : State) : (s.pinInput a).wire = s.wire := rfl
@[simp] theorem State.pinInput_owed (a : PinAction) (s : State) : (s.pinInput a).owed = s.owed := rfl
@[simp] theorem State.pinInput_inputs (a : PinAction) (s : State) : (s.pinInput a).inputs = s.inputs := rfl
@[simp] theorem State.pinInput_result (a : PinAction) (s : State) :
    (s.pinInput a).result = signalled (s.dec.pin s.par a).2 := rfl
@[simp] theorem State.pinInput_dev (a : PinAction) (s : State) : (s.pinInput a).enc.dev = s.enc.dev := rfl
@[simp] theorem State.pinInput_latched (a : PinAction) (s : State) :
    (s.pinInput a).enc.latched = s.enc.latched := rfl
@[simp] theorem State.pinInput_penX (a : PinAction) (s : State) : (s.pinInput a).enc.penX = s.enc.penX := rfl
@[simp] theorem State.pinInput_penY (a : PinAction) (s : State) : (s.pinInput a).enc.penY = s.enc.penY := rfl
@[simp] theorem State.pinInput_out (a : PinAction) (s : State) : (s.pinInput a).enc.out = s.enc.out := rfl
@[simp] theorem State.pinInput_log (a : PinAction) (s : State) : (s.pinInput a).enc.log = s.enc.log := rfl
@[simp] theorem State.pinInput_ready (a : PinAction) (s : State) :
    (s.pinInput a).enc.ready = s.enc.ready := rfl

/-! ## transaction -/

@[simp] theorem State.transaction_par (ev : Event) (s : State) : (s.transaction ev).par = s.par := rfl
@[simp] theorem State.transaction_dec (ev : Event) (s : State) :
    (s.transaction ev).dec = (Dec.pins s.par (framing ev) s.dec).1 := rfl
@[simp] theorem State.transaction_wire (ev : Event) (s : State) : (s.transaction ev).wire = s.wire := rfl
@[simp] theorem State.transaction_owed (ev : Event) (s : State) : (s.transaction ev).owed = s.owed := rfl
@[simp] theorem State.transaction_inputs (ev : Event) (s : State) :
    (s.transaction ev).inputs = s.inputs := rfl
@[simp] theorem State.transaction_result (ev : Event) (s : State) :
    (s.transaction ev).result = signalled (Dec.pins s.par (framing ev) s.dec).2 := rfl
@[simp] theorem State.transaction_dev (ev : Event) (s : State) : (s.transaction ev).enc.dev = s.enc.dev := rfl
@[simp] theorem State.transaction_latched (ev : Event) (s : State) :
    (s.transaction ev).enc.latched = s.enc.latched := rfl
@[simp] theorem State.transaction_penX (ev : Event) (s : State) :
    (s.transaction ev).enc.penX = s.enc.penX := rfl
@[simp] theorem State.transaction_penY (ev : Event) (s : State) :
    (s.transaction ev).enc.penY = s.enc.penY := rfl
@[simp] theorem State.transaction_out (ev : Event) (s : State) : (s.transaction ev).enc.out = s.enc.out := rfl
@[simp] theorem State.transaction_log (ev : Event) (s : State) : (s.transaction ev).enc.log = s.enc.log := rfl
@[simp] theorem State.transaction_ready (ev : Event) (s : State) :
    (s.transaction ev).enc.ready = s.enc.ready := rfl

/-! ## flushInput -/

@[simp] theorem State.flushInput_par (s : State) : (s.flushInput).par = s.par := rfl
@[simp] theorem State.flushInput_dec (s : State) : (s.flushInput).dec = s.dec.flush s.par := rfl
@[simp] theorem State.flushInput_wire (s : State) : (s.flushInput).wire = s.wire := rfl
@[simp] theorem State.flushInput_owed (s : State) : (s.flushInput).owed = s.owed := rfl
@[simp] theorem State.flushInput_inputs (s : State) : (s.flushInput).inputs = s.inputs := rfl
@[simp] theorem State.flushInput_result (s : State) : (s.flushInput).result = .none := rfl
@[simp] theorem State.flushInput_dev (s : State) : (s.flushInput).enc.dev = s.enc.dev := rfl
@[simp] theorem State.flushInput_latched (s : State) : (s.flushInput).enc.latched = s.enc.latched := rfl
@[simp] theorem State.flushInput_penX (s : State) : (s.flushInput).enc.penX = s.enc.penX := rfl
@[simp] theorem State.flushInput_penY (s : State) : (s.flushInput).enc.penY = s.enc.penY := rfl
@[simp] theorem State.flushInput_out (s : State) : (s.flushInput).enc.out = s.enc.out := rfl
@[simp] theorem State.flushInput_log (s : State) : (s.flushInput).enc.log = s.enc.log := rfl
@[simp] theorem State.flushInput_ready (s : State) : (s.flushInput).enc.ready = s.enc.ready := rfl

/-! ## sent -/

@[simp] theorem State.sent_par (s : State) (evs : List Event) (d : DeviceState) (r : RegAddr) :
    (s.sent evs d r).par = s.par := rfl
@[simp] theorem State.sent_dec (s : State) (evs : List Event) (d : DeviceState) (r : RegAddr) :
    (s.sent evs d r).dec = s.dec := rfl
@[simp] theorem State.sent_wire (s : State) (evs : List Event) (d : DeviceState) (r : RegAddr) :
    (s.sent evs d r).wire = s.wire ++ evs.flatMap framing := rfl
@[simp] theorem State.sent_owed (s : State) (evs : List Event) (d : DeviceState) (r : RegAddr) :
    (s.sent evs d r).owed = (s.wire ++ evs.flatMap framing).length := rfl
@[simp] theorem State.sent_inputs (s : State) (evs : List Event) (d : DeviceState) (r : RegAddr) :
    (s.sent evs d r).inputs = s.inputs := rfl
@[simp] theorem State.sent_result (s : State) (evs : List Event) (d : DeviceState) (r : RegAddr) :
    (s.sent evs d r).result = s.result := rfl
@[simp] theorem State.sent_dev (s : State) (evs : List Event) (d : DeviceState) (r : RegAddr) :
    (s.sent evs d r).enc.dev = some d := rfl
@[simp] theorem State.sent_latched (s : State) (evs : List Event) (d : DeviceState) (r : RegAddr) :
    (s.sent evs d r).enc.latched = some r := rfl
@[simp] theorem State.sent_penX (s : State) (evs : List Event) (d : DeviceState) (r : RegAddr) :
    (s.sent evs d r).enc.penX = s.enc.penX := rfl
@[simp] theorem State.sent_penY (s : State) (evs : List Event) (d : DeviceState) (r : RegAddr) :
    (s.sent evs d r).enc.penY = s.enc.penY := rfl
@[simp] theorem State.sent_out (s : State) (evs : List Event) (d : DeviceState) (r : RegAddr) :
    (s.sent evs d r).enc.out = s.enc.out ++ evs := rfl
@[simp] theorem State.sent_log (s : State) (evs : List Event) (d : DeviceState) (r : RegAddr) :
    (s.sent evs d r).enc.log = s.enc.log := rfl
@[simp] theorem State.sent_ready (s : State) (evs : List Event) (d : DeviceState) (r : RegAddr) :
    (s.sent evs d r).enc.ready = false := rfl

/-! ## The front end's cursor and window -/

@[simp] theorem DeviceState.advanceCursor_width (d : DeviceState) : (d.advanceCursor).width = d.width := rfl
@[simp] theorem DeviceState.advanceCursor_height (d : DeviceState) :
    (d.advanceCursor).height = d.height := rfl
@[simp] theorem DeviceState.advanceCursor_rotation (d : DeviceState) :
    (d.advanceCursor).rotation = d.rotation := rfl
@[simp] theorem DeviceState.advanceCursor_colorOrder (d : DeviceState) :
    (d.advanceCursor).colorOrder = d.colorOrder := rfl
@[simp] theorem DeviceState.advanceCursor_win (d : DeviceState) : (d.advanceCursor).win = d.win := rfl
@[simp] theorem DeviceState.advanceCursor_cx (d : DeviceState) :
    (d.advanceCursor).cx = (advance d.win d.cx d.cy).1 := rfl
@[simp] theorem DeviceState.advanceCursor_cy (d : DeviceState) :
    (d.advanceCursor).cy = (advance d.win d.cx d.cy).2 := rfl

@[simp] theorem DeviceState.setWindow_width (w : Window Int) (d : DeviceState) :
    (d.setWindow w).width = d.width := rfl
@[simp] theorem DeviceState.setWindow_height (w : Window Int) (d : DeviceState) :
    (d.setWindow w).height = d.height := rfl
@[simp] theorem DeviceState.setWindow_rotation (w : Window Int) (d : DeviceState) :
    (d.setWindow w).rotation = d.rotation := rfl
@[simp] theorem DeviceState.setWindow_colorOrder (w : Window Int) (d : DeviceState) :
    (d.setWindow w).colorOrder = d.colorOrder := rfl
@[simp] theorem DeviceState.setWindow_win (w : Window Int) (d : DeviceState) : (d.setWindow w).win = w := rfl
@[simp] theorem DeviceState.setWindow_cx (w : Window Int) (d : DeviceState) : (d.setWindow w).cx = w.x1 := rfl
@[simp] theorem DeviceState.setWindow_cy (w : Window Int) (d : DeviceState) : (d.setWindow w).cy = w.y1 := rfl

/-! ## The decoder -/

@[simp] theorem Dec.fbWrite_rs (p : Params) (x y : Nat) (v : Word16) (d : Dec) :
    (d.fbWrite p x y v).rs = d.rs := rfl
@[simp] theorem Dec.fbWrite_cs (p : Params) (x y : Nat) (v : Word16) (d : Dec) :
    (d.fbWrite p x y v).cs = d.cs := rfl
@[simp] theorem Dec.fbWrite_phase (p : Params) (x y : Nat) (v : Word16) (d : Dec) :
    (d.fbWrite p x y v).phase = d.phase := rfl
@[simp] theorem Dec.fbWrite_latched (p : Params) (x y : Nat) (v : Word16) (d : Dec) :
    (d.fbWrite p x y v).latched = d.latched := rfl
@[simp] theorem Dec.fbWrite_partialByte (p : Params) (x y : Nat) (v : Word16) (d : Dec) :
    (d.fbWrite p x y v).partialByte = d.partialByte := rfl
@[simp] theorem Dec.fbWrite_win (p : Params) (x y : Nat) (v : Word16) (d : Dec) :
    (d.fbWrite p x y v).win = d.win := rfl
@[simp] theorem Dec.fbWrite_cx (p : Params) (x y : Nat) (v : Word16) (d : Dec) :
    (d.fbWrite p x y v).cx = d.cx := rfl
@[simp] theorem Dec.fbWrite_cy (p : Params) (x y : Nat) (v : Word16) (d : Dec) :
    (d.fbWrite p x y v).cy = d.cy := rfl
@[simp] theorem Dec.fbWrite_fb (p : Params) (x y : Nat) (v : Word16) (d : Dec) :
    (d.fbWrite p x y v).fb = Memory.write d.fb (cellIndex p x y) v := rfl
@[simp] theorem Dec.fbWrite_dirty (p : Params) (x y : Nat) (v : Word16) (d : Dec) :
    (d.fbWrite p x y v).dirty = dirtyAfterWrite d.dirty (d.cell p x y) v := rfl
@[simp] theorem Dec.fbWrite_err (p : Params) (x y : Nat) (v : Word16) (d : Dec) :
    (d.fbWrite p x y v).err = d.err := rfl
@[simp] theorem Dec.fbWrite_regs (p : Params) (x y : Nat) (v : Word16) (d : Dec) :
    (d.fbWrite p x y v).regs = d.regs := rfl
@[simp] theorem Dec.fbWrite_frames (p : Params) (x y : Nat) (v : Word16) (d : Dec) :
    (d.fbWrite p x y v).frames = d.frames := rfl

@[simp] theorem Dec.advanceCursor_rs (d : Dec) : (d.advanceCursor).rs = d.rs := rfl
@[simp] theorem Dec.advanceCursor_cs (d : Dec) : (d.advanceCursor).cs = d.cs := rfl
@[simp] theorem Dec.advanceCursor_phase (d : Dec) : (d.advanceCursor).phase = d.phase := rfl
@[simp] theorem Dec.advanceCursor_latched (d : Dec) : (d.advanceCursor).latched = d.latched := rfl
@[simp] theorem Dec.advanceCursor_partialByte (d : Dec) : (d.advanceCursor).partialByte = d.partialByte := rfl
@[simp] theorem Dec.advanceCursor_win (d : Dec) : (d.advanceCursor).win = d.win := rfl
@[simp] theorem Dec.advanceCursor_cx (d : Dec) :
    (d.advanceCursor).cx = (advance (mapWindow BitVec.toNat d.win) d.cx d.cy).1 := rfl
@[simp] theorem Dec.advanceCursor_cy (d : Dec) :
    (d.advanceCursor).cy = (advance (mapWindow BitVec.toNat d.win) d.cx d.cy).2 := rfl
@[simp] theorem Dec.advanceCursor_fb (d : Dec) : (d.advanceCursor).fb = d.fb := rfl
@[simp] theorem Dec.advanceCursor_dirty (d : Dec) : (d.advanceCursor).dirty = d.dirty := rfl
@[simp] theorem Dec.advanceCursor_err (d : Dec) : (d.advanceCursor).err = d.err := rfl
@[simp] theorem Dec.advanceCursor_regs (d : Dec) : (d.advanceCursor).regs = d.regs := rfl
@[simp] theorem Dec.advanceCursor_frames (d : Dec) : (d.advanceCursor).frames = d.frames := rfl

@[simp] theorem Dec.raise_rs (e : ProtocolError) (d : Dec) : (d.raise e).1.rs = d.rs := rfl
@[simp] theorem Dec.raise_cs (e : ProtocolError) (d : Dec) : (d.raise e).1.cs = d.cs := rfl
@[simp] theorem Dec.raise_phase (e : ProtocolError) (d : Dec) : (d.raise e).1.phase = .faulted := rfl
@[simp] theorem Dec.raise_latched (e : ProtocolError) (d : Dec) : (d.raise e).1.latched = d.latched := rfl
@[simp] theorem Dec.raise_partialByte (e : ProtocolError) (d : Dec) :
    (d.raise e).1.partialByte = d.partialByte := rfl
@[simp] theorem Dec.raise_win (e : ProtocolError) (d : Dec) : (d.raise e).1.win = d.win := rfl
@[simp] theorem Dec.raise_cx (e : ProtocolError) (d : Dec) : (d.raise e).1.cx = d.cx := rfl
@[simp] theorem Dec.raise_cy (e : ProtocolError) (d : Dec) : (d.raise e).1.cy = d.cy := rfl
@[simp] theorem Dec.raise_fb (e : ProtocolError) (d : Dec) : (d.raise e).1.fb = d.fb := rfl
@[simp] theorem Dec.raise_dirty (e : ProtocolError) (d : Dec) : (d.raise e).1.dirty = d.dirty := rfl
@[simp] theorem Dec.raise_err (e : ProtocolError) (d : Dec) : (d.raise e).1.err = some e := rfl
@[simp] theorem Dec.raise_regs (e : ProtocolError) (d : Dec) : (d.raise e).1.regs = d.regs := rfl
@[simp] theorem Dec.raise_frames (e : ProtocolError) (d : Dec) : (d.raise e).1.frames = d.frames := rfl

@[simp] theorem Dec.raise_signal (e : ProtocolError) (d : Dec) : (d.raise e).2 = some e := rfl

@[simp] theorem Dec.resetPulse_rs (p : Params) (d : Dec) : (d.resetPulse p).rs = d.rs := rfl
@[simp] theorem Dec.resetPulse_cs (p : Params) (d : Dec) : (d.resetPulse p).cs = d.cs := rfl
@[simp] theorem Dec.resetPulse_phase (p : Params) (d : Dec) : (d.resetPulse p).phase = .idle := rfl
@[simp] theorem Dec.resetPulse_latched (p : Params) (d : Dec) : (d.resetPulse p).latched = none := rfl
@[simp] theorem Dec.resetPulse_partialByte (p : Params) (d : Dec) : (d.resetPulse p).partialByte = none := rfl
@[simp] theorem Dec.resetPulse_win (p : Params) (d : Dec) : (d.resetPulse p).win = resetWindow p := rfl
@[simp] theorem Dec.resetPulse_cx (p : Params) (d : Dec) : (d.resetPulse p).cx = 0 := rfl
@[simp] theorem Dec.resetPulse_cy (p : Params) (d : Dec) : (d.resetPulse p).cy = 0 := rfl
@[simp] theorem Dec.resetPulse_fb (p : Params) (d : Dec) : (d.resetPulse p).fb = d.fb := rfl
@[simp] theorem Dec.resetPulse_dirty (p : Params) (d : Dec) : (d.resetPulse p).dirty = d.dirty := rfl
@[simp] theorem Dec.resetPulse_err (p : Params) (d : Dec) : (d.resetPulse p).err = d.err := rfl
@[simp] theorem Dec.resetPulse_regs (p : Params) (d : Dec) : (d.resetPulse p).regs = [] := rfl
@[simp] theorem Dec.resetPulse_frames (p : Params) (d : Dec) : (d.resetPulse p).frames = d.frames := rfl

@[simp] theorem signalled_none : signalled none = .none := rfl
@[simp] theorem signalled_some (e : ProtocolError) : signalled (some e) = .fault e := rfl

end Sys2Proof.Machine
end

