-- ==== Sys2Proof/Laws/Ops.lean ====
section
/-! SUPPORT. One lemma for each shared operation of the front end that says once everything it does. -/

namespace Sys2Proof.Machine

/-! ## Small facts -/

@[simp] theorem framing_ne_nil (ev : Event) : framing ev ≠ [] := by cases ev <;> simp [framing]

/-- A window overwritten after a cursor advance: the advance does not show. -/
@[simp] theorem DeviceState.setWindow_advanceCursor (w : Window Int) (d : DeviceState) :
    d.advanceCursor.setWindow w = d.setWindow w := rfl

@[simp] theorem map_setWindow_ite (c : Prop) [Decidable c] (w : Window Int) (o : Option DeviceState) :
    Option.map (DeviceState.setWindow w) (if c then o.map DeviceState.advanceCursor else o) =
      o.map (DeviceState.setWindow w) := by
  split_ifs <;> simp [Function.comp_def]

/-- The addressing rule keeps the cursor in its window (40_transport R150). -/
theorem advance_mem {w : Window Int} {cx cy : Int} (h1 : w.x1 ≤ cx) (h2 : cx ≤ w.x2) (h3 : w.y1 ≤ cy)
    (h4 : cy ≤ w.y2) :
    w.x1 ≤ (advance w cx cy).1 ∧ (advance w cx cy).1 ≤ w.x2 ∧
      w.y1 ≤ (advance w cx cy).2 ∧ (advance w cx cy).2 ≤ w.y2 := by
  unfold advance
  split_ifs <;> refine ⟨?_, ?_, ?_, ?_⟩ <;> simp <;> omega

/-- The addressing rule keeps the cursor in its window (40_transport R150), on naturals. -/
theorem advance_mem_nat {w : Window Nat} {cx cy : Nat} (h1 : w.x1 ≤ cx) (h2 : cx ≤ w.x2) (h3 : w.y1 ≤ cy)
    (h4 : cy ≤ w.y2) :
    w.x1 ≤ (advance w cx cy).1 ∧ (advance w cx cy).1 ≤ w.x2 ∧
      w.y1 ≤ (advance w cx cy).2 ∧ (advance w cx cy).2 ≤ w.y2 := by
  unfold advance
  split_ifs <;> refine ⟨?_, ?_, ?_, ?_⟩ <;> simp <;> omega

/-- In a one-cell window the cursor comes back to the cell (40_transport R151). -/
theorem advance_cell (pt : Point) : advance (cellWindow pt) pt.x pt.y = (pt.x, pt.y) := by
  simp [advance, cellWindow]

/-! ## Emission -/

/-- Everything `EmitData` does (40_transport R142). -/
theorem State.emitData_eq (w : Word16) (s : State) :
    s.emitData w =
      { s with
        enc := { s.enc with
          dev := if s.enc.latched = some s.par.regGram then s.enc.dev.map DeviceState.advanceCursor
                 else s.enc.dev
          out := s.enc.out ++ [.data w]
          ready := false }
        wire := s.wire ++ framing (.data w)
        owed := (s.wire ++ framing (.data w)).length } := by
  unfold State.emitData
  split_ifs <;> rfl

/-- Everything `WriteReg` does (40_transport R144). -/
theorem State.writeReg_eq (r : RegAddr) (v : Word16) (s : State) :
    s.writeReg r v =
      { s with
        enc := { s.enc with
          dev := if r = s.par.regGram then s.enc.dev.map DeviceState.advanceCursor else s.enc.dev
          latched := some r
          out := s.enc.out ++ [.cmd r, .data v]
          ready := false }
        wire := s.wire ++ (framing (.cmd r) ++ framing (.data v))
        owed := (s.wire ++ (framing (.cmd r) ++ framing (.data v))).length } := by
  simp [State.writeReg, State.emitData_eq, State.emitCmd, State.emit]

/-- Everything `SetWindowCore` does on a configured front end (41_encoder_config R182). -/
theorem State.setWindowCore_eq {s : State} {d : DeviceState} (h : s.enc.dev = some d) (w : Window Int) :
    s.setWindowCore w = s.sent (windowEvents s.par w) (d.setWindow w) s.par.regGram := by
  simp [State.setWindowCore, State.writeReg_eq, State.emitCmd, State.emit, State.sent, windowEvents, h]
  split_ifs <;> simp

/-- What a GRAM data word adds to a sent list (40_transport R142). -/
theorem State.sent_emitData (s : State) (evs : List Event) (d : DeviceState) (w : Word16) :
    (s.sent evs d s.par.regGram).emitData w =
      s.sent (evs ++ [.data w]) d.advanceCursor s.par.regGram := by
  simp [State.emitData_eq, State.sent]

/-- The cursor after `n` advances. -/
def DeviceState.advanceTimes : Nat → DeviceState → DeviceState
  | 0, d => d
  | n + 1, d => DeviceState.advanceTimes n d.advanceCursor

/-- Everything `n` GRAM data words add to a sent list (42_raster_primitives R206). -/
theorem State.sent_emitDataTimes (s : State) (n : Nat) (evs : List Event) (d : DeviceState) (w : Word16) :
    (s.sent evs d s.par.regGram).emitDataTimes n w =
      s.sent (evs ++ List.replicate n (.data w)) (d.advanceTimes n) s.par.regGram := by
  induction n generalizing evs d with
  | zero => simp [State.emitDataTimes, DeviceState.advanceTimes]
  | succ n ih => simp [State.emitDataTimes, State.sent_emitData, ih, DeviceState.advanceTimes,
      List.replicate_succ]

/-- Sending twice is sending both lists. -/
@[simp] theorem State.sent_sent (s : State) (evs evs' : List Event) (d d' : DeviceState) (r r' : RegAddr) :
    (s.sent evs d r).sent evs' d' r' = s.sent (evs ++ evs') d' r' := by
  simp [State.sent]

/-! ## Plotting -/

/-- Everything `PlotPixel` does on the device (42_raster_primitives R200). -/
theorem State.plotPixel_inside {s : State} {d : DeviceState} {pt : Point} (c : Color)
    (h : s.enc.dev = some d) (hin : d.contains pt.x pt.y = true) :
    s.plotPixel c pt =
      s.sent (pixelEvents s.par c pt) { d with win := cellWindow pt, cx := pt.x, cy := pt.y }
        s.par.regGram := by
  have he := State.setWindowCore_eq h (cellWindow pt)
  simp only [State.plotPixel, h, hin, if_true]
  rw [show (⟨pt.x, pt.y, pt.x, pt.y⟩ : Window Int) = cellWindow pt from rfl, he, State.sent_emitData]
  simp [pixelEvents, DeviceState.advanceCursor, DeviceState.setWindow, advance, cellWindow]

/-- `PlotPixel` off the device does nothing (42_raster_primitives R200). -/
theorem State.plotPixel_outside {s : State} {d : DeviceState} {pt : Point} (c : Color)
    (h : s.enc.dev = some d) (hin : d.contains pt.x pt.y = false) : s.plotPixel c pt = s := by
  simp [State.plotPixel, h, hin]

/-- Plotting moves the window and the cursor only, so it does not change what is on the device. -/
theorem DeviceState.contains_moved (d : DeviceState) (w : Window Int) (cx cy x y : Int) :
    ({ d with win := w, cx := cx, cy := cy } : DeviceState).contains x y = d.contains x y := rfl

/-- Everything plotting a list of cells does: it sends the events of the cells on the device. -/
theorem State.plotCells_eq {s : State} {d : DeviceState} (cells : List Point) (c : Color)
    (h : s.enc.dev = some d) : s.plotCells cells c = s.plotted d cells c := by
  induction cells generalizing s d with
  | nil => rfl
  | cons pt rest ih =>
    rw [State.plotCells, List.foldl_cons]
    change (s.plotPixel c pt).plotCells rest c = _
    cases hin : d.contains pt.x pt.y with
    | false =>
      rw [State.plotPixel_outside c h hin, ih h]
      simp [State.plotted, hin]
    | true =>
      rw [State.plotPixel_inside c h hin, ih (d := { d with win := cellWindow pt, cx := pt.x, cy := pt.y }) rfl]
      simp only [State.plotted, DeviceState.contains_moved, List.filter_cons, hin, if_true,
        List.getLast?_cons, State.sent_par]
      cases hlast : (rest.filter fun pt => d.contains pt.x pt.y).getLast? with
      | none => simp [List.getLast?_eq_none_iff.mp hlast]
      | some q => simp

/-! ## The common prologue -/

theorem State.withDevice_none {s : State} (op : BitVec 4) (body : DeviceState → State)
    (h : s.enc.dev = none) : s.withDevice op body = s.logged configError op := by
  simp [State.withDevice, h, State.drop, State.logDiag, State.logged]

theorem State.withDevice_some {s : State} {d : DeviceState} (op : BitVec 4) (body : DeviceState → State)
    (h : s.enc.dev = some d) : s.withDevice op body = body d := by
  simp [State.withDevice, h]

/-- Dropping a request logs one record and changes nothing else (60_exceptions R326). -/
theorem State.drop_eq (s : State) (code : BitVec 8) (op : BitVec 4) : s.drop code op = s.logged code op := rfl

/-- The pen update as the statements write it. -/
theorem State.setPen_eq (s : State) (pen : Point) : s.setPen pen = s.withPen pen := rfl

end Sys2Proof.Machine
end

