-- ==== Sys2Proof/Laws/Decoder.lean ====
section
/-! SUPPORT. One lemma for each operation of the decoder that says once everything it can do, and the good
decoder states that every input keeps. -/

namespace Sys2Proof.Machine

/-! ## The phase -/

@[simp] theorem phaseOf_err (e : ProtocolError) (latched : Option RegAddr) (b : Option Byte) :
    phaseOf (some e) latched b = .faulted := rfl

@[simp] theorem phaseOf_idle (b : Option Byte) : phaseOf none none b = .idle := rfl

@[simp] theorem phaseOf_latched (r : RegAddr) : phaseOf none (some r) none = .commandLatched := rfl

@[simp] theorem phaseOf_partial (r : RegAddr) (b : Byte) :
    phaseOf none (some r) (some b) = .dataAccumulating := rfl

@[simp] theorem Dec.raise_fst (e : ProtocolError) (d : Dec) :
    (d.raise e).1 = { d with err := some e, phase := .faulted } := rfl

@[simp] theorem Dec.raise_snd (e : ProtocolError) (d : Dec) : (d.raise e).2 = some e := rfl

/-! ## One word -/

/-- Everything `GramWrite` can do (44_decoder R261). -/
theorem Dec.gramWrite_cases (p : Params) (w : Word16) (d : Dec) :
    (d.cursorInWindow = false ∧ d.gramWrite p w = d.raise (.cursorOutsideWindow d.cx d.cy)) ∨
    (d.cursorInWindow = true ∧ d.cursorInFramebuffer p = false ∧
      d.gramWrite p w = d.raise (.pixelOutsideFramebuffer d.cx d.cy)) ∨
    (d.cursorInWindow = true ∧ d.cursorInFramebuffer p = true ∧
      d.gramWrite p w = ((d.fbWrite p d.cx d.cy w).advanceCursor, none)) := by
  unfold Dec.gramWrite
  cases d.cursorInWindow <;> cases d.cursorInFramebuffer p <;> simp

theorem Dec.registerWord_gram (p : Params) (w : Word16) (d : Dec) :
    d.registerWord p p.regGram w = d.gramWrite p w := by simp [Dec.registerWord]

/-- The roles of well-formed parameters are different registers (00_scope R8). -/
theorem Params.wf_roles {p : Params} (h : p.wf = true) : p.roles.Nodup := by
  simp only [Params.wf, Bool.and_eq_true, decide_eq_true_eq] at h
  exact h.1

/-- Everything a word to a setter or to the mirror does, under well-formed parameters (44_decoder R262,
R263, R264). -/
theorem Dec.registerWord_setters {p : Params} (h : p.wf = true) (w : Word16) (d : Dec) :
    d.registerWord p p.regHS w = ({ d with win := { d.win with x1 := w } }, none) ∧
    d.registerWord p p.regHE w = ({ d with win := { d.win with x2 := w } }, none) ∧
    d.registerWord p p.regVS w = ({ d with win := { d.win with y1 := w } }, none) ∧
    d.registerWord p p.regVE w = ({ d with win := { d.win with y2 := w } }, none) ∧
    d.registerWord p p.regAX w = ({ d with cx := w.toNat }, none) ∧
    d.registerWord p p.regAY w = ({ d with cy := w.toNat }, none) ∧
    d.registerWord p p.regEntry w = ({ d with regs := Memory.write d.regs p.regEntry.toNat w }, none) := by
  have hn := Params.wf_roles h
  simp only [Params.roles, List.nodup_cons, List.mem_cons, not_or, List.not_mem_nil, not_false_eq_true,
    and_true] at hn
  obtain ⟨⟨a1, a2, a3, a4, a5, a6, a7⟩, ⟨b1, b2, b3, b4, b5, b6⟩, ⟨c1, c2, c3, c4, c5⟩, ⟨d1, d2, d3, d4⟩,
    ⟨e1, e2, e3⟩, ⟨f1, f2⟩, g1, -⟩ := hn
  refine ⟨?_, ?_, ?_, ?_, ?_, ?_, ?_⟩
  · simp [Dec.registerWord, a6]
  · simp [Dec.registerWord, b5, Ne.symm a1]
  · simp [Dec.registerWord, c4, Ne.symm a2, Ne.symm b1]
  · simp [Dec.registerWord, d3, Ne.symm a3, Ne.symm b2, Ne.symm c1]
  · simp [Dec.registerWord, e2, Ne.symm a4, Ne.symm b3, Ne.symm c2, Ne.symm d1]
  · simp [Dec.registerWord, f1, Ne.symm a5, Ne.symm b4, Ne.symm c3, Ne.symm d2, Ne.symm e1]
  · simp [Dec.registerWord, Ne.symm g1, Ne.symm a7, Ne.symm b6, Ne.symm c5, Ne.symm d4, Ne.symm e3,
      Ne.symm f2]

/-- A register the decoder records (44_decoder R264). -/
theorem Dec.registerWord_recorded {p : Params} {r : RegAddr} (h : p.unrecorded r = false) (w : Word16)
    (d : Dec) :
    d.registerWord p r w = ({ d with regs := Memory.write d.regs r.toNat w }, none) := by
  simp [Params.unrecorded] at h
  simp [Dec.registerWord, h]

/-! ## Strobes -/

/-- Everything a command strobe can do (44_decoder R255, R256). -/
theorem Dec.commandStrobe_cases (p : Params) (bytes : List Byte) (d : Dec) :
    (∃ r, bytes = [r] ∧ p.mapped r = true ∧
      d.commandStrobe p bytes =
        ({ d with latched := some r, partialByte := none, phase := .commandLatched }, none)) ∨
    (∃ r, bytes = [r] ∧ p.mapped r = false ∧ d.commandStrobe p bytes = d.raise (.unmappedRegister r)) ∨
    (bytes.length ≠ 1 ∧ d.commandStrobe p bytes = d.raise (.badCommandLength bytes.length)) := by
  match bytes with
  | [] => simp [Dec.commandStrobe]
  | [r] => cases h : p.mapped r <;> simp [Dec.commandStrobe, h]
  | _ :: _ :: _ => simp [Dec.commandStrobe]

/-- Bytes pair up across strobes (44_decoder R257): a strobe in two parts is one strobe. -/
theorem Dec.dataBytes_append (p : Params) (b b' : List Byte) (d : Dec) :
    Dec.dataBytes p (b ++ b') d =
      match Dec.dataBytes p b d with
      | (d', some e) => (d', some e)
      | (d', none) => Dec.dataBytes p b' d' := by
  induction b generalizing d with
  | nil => rfl
  | cons x b ih =>
    simp only [List.cons_append, Dec.dataBytes]
    cases d.partialByte with
    | none => exact ih _
    | some high =>
      simp only
      generalize Dec.dataWord p (high ++ x) { d with partialByte := none, phase := .commandLatched } = res
      obtain ⟨d', _ | e⟩ := res
      · exact ih _
      · rfl

/-! ## Pin actions -/

/-- A faulted decoder ignores every pin action (44_decoder R254). -/
theorem Dec.pin_faulted {d : Dec} (p : Params) (a : PinAction) (h : d.err.isSome = true) :
    d.pin p a = (d, none) := by simp [Dec.pin, h]

theorem Dec.pins_faulted {d : Dec} (p : Params) (l : List PinAction) (h : d.err.isSome = true) :
    Dec.pins p l d = (d, none) := by
  induction l with
  | nil => rfl
  | cons a l ih => simp [Dec.pins, Dec.pin_faulted p a h, ih]

@[simp] theorem Dec.pins_nil (p : Params) (d : Dec) : Dec.pins p [] d = (d, none) := rfl

theorem Dec.pins_cons (p : Params) (a : PinAction) (l : List PinAction) (d : Dec) :
    Dec.pins p (a :: l) d =
      ((Dec.pins p l (d.pin p a).1).1, (d.pin p a).2 <|> (Dec.pins p l (d.pin p a).1).2) := rfl

theorem Dec.pins_append (p : Params) (l l' : List PinAction) (d : Dec) :
    Dec.pins p (l ++ l') d =
      ((Dec.pins p l' (Dec.pins p l d).1).1, (Dec.pins p l d).2 <|> (Dec.pins p l' (Dec.pins p l d).1).2) := by
  induction l generalizing d with
  | nil => simp
  | cons a l ih =>
    simp only [List.cons_append, Dec.pins_cons, ih]
    cases (d.pin p a).2 <;> simp

/-- Everything the pin sequence of a command to a mapped register does to a decoder without a fault
(40_transport R146, 44_decoder R255). -/
theorem Dec.pins_cmd {p : Params} {r : RegAddr} {d : Dec} (he : d.err = none) (hr : p.mapped r = true) :
    Dec.pins p (framing (.cmd r)) d =
      ({ d with rs := some .cmd, cs := false, latched := some r, partialByte := none,
                phase := .commandLatched }, none) := by
  simp [framing, Dec.pins, Dec.pin, Dec.writeBytes, Dec.commandStrobe, he, hr]

/-- Splitting a word in two bytes loses nothing (20_memory R78). -/
theorem splitWord_join (w : Word16) : w.extractLsb' 8 8 ++ w.extractLsb' 0 8 = w := by
  apply BitVec.eq_of_getLsbD_eq
  intro i hi
  rw [BitVec.getLsbD_append]
  split_ifs with h
  · simp [h]
  · simp only [BitVec.getLsbD_extractLsb', show 8 + (i - 8) = i by omega,
      show i - 8 < 8 by omega, decide_true, Bool.true_and]

/-- What the pin sequence of a data word does to a decoder without a fault, a latched register and no
pending byte: the word is dispatched, and the chip is deselected unless it faulted (40_transport R147,
44_decoder R257, R260). -/
theorem Dec.pins_data {p : Params} {r : RegAddr} {d : Dec} (w : Word16) (he : d.err = none)
    (hl : d.latched = some r) (hp : d.partialByte = none) :
    Dec.pins p (framing (.data w)) d =
      match Dec.registerWord p r w
          { d with rs := some .data, cs := true, partialByte := none, phase := .commandLatched } with
      | (d', some e) => ((d'.pin p (.selectChip false)).1, some e)
      | (d', none) => d'.pin p (.selectChip false) := by
  obtain ⟨rs, cs, phase, latched, partialByte, win, cx, cy, fb, dirty, err, regs, frames⟩ := d
  obtain rfl : err = none := he
  obtain rfl : latched = some r := hl
  obtain rfl : partialByte = none := hp
  simp only [framing, Dec.pins, Dec.pin, Dec.writeBytes, Dec.dataStrobe, Dec.dataBytes, Dec.dataWord,
    Option.isSome_none, Option.isNone_some, Bool.not_true, Bool.false_eq_true, if_false,
    splitWord_join]
  generalize Dec.registerWord p r w _ = res
  obtain ⟨d', e⟩ := res
  cases e <;> cases h : d'.err.isSome <;> simp [h]

/-- A word that raises no fault leaves these fields (44_decoder R260 to R264). -/
theorem Dec.registerWord_err {p : Params} {r : RegAddr} {w : Word16} {d d' : Dec}
    (h : d.registerWord p r w = (d', none)) :
    d'.err = d.err ∧ d'.latched = d.latched ∧ d'.partialByte = d.partialByte ∧ d'.phase = d.phase := by
  unfold Dec.registerWord at h
  split_ifs at h
  · rcases d.gramWrite_cases p w with ⟨-, h'⟩ | ⟨-, -, h'⟩ | ⟨-, -, h'⟩ <;> rw [h'] at h
    · cases h
    · cases h
    · obtain rfl := (Prod.mk.inj h).1; exact ⟨rfl, rfl, rfl, rfl⟩
  all_goals obtain rfl := (Prod.mk.inj h).1; exact ⟨rfl, rfl, rfl, rfl⟩

/-- The first byte of a data word on the wire (40_transport R147). -/
theorem splitWord_high (w : Word16) : (w >>> 8).setWidth 8 = w.extractLsb' 8 8 := by
  apply BitVec.eq_of_toNat_eq
  simp

/-- The second byte of a data word on the wire (40_transport R147). -/
theorem splitWord_low (w : Word16) : w.setWidth 8 = w.extractLsb' 0 8 := by
  apply BitVec.eq_of_toNat_eq
  simp

/-- What the pin sequence of a data word does to a decoder without a fault and with a latched register, a
byte pending or not: the completed word is dispatched, and unless it faulted the chip is deselected and the
second byte of a word after a pending byte waits (40_transport R147, 44_decoder R257, R260). -/
theorem Dec.pins_dataFrame {p : Params} {r : RegAddr} {d : Dec} (w : Word16) (he : d.err = none)
    (hl : d.latched = some r) :
    Dec.pins p (framing (.data w)) d =
      match Dec.registerWord p r (d.completed w)
          { d with rs := some .data, cs := true, partialByte := none, phase := .commandLatched } with
      | (d', some e) => ((d'.pin p (.selectChip false)).1, some e)
      | (d', none) =>
        ({ d' with cs := false, partialByte := (d.afterData w).partialByte, phase := (d.afterData w).phase },
          none) := by
  cases hp : d.partialByte with
  | none =>
    rw [Dec.pins_data w he hl hp, show d.completed w = w by simp [Dec.completed, hp]]
    generalize hres : Dec.registerWord p r w _ = res
    obtain ⟨d', _ | e⟩ := res
    · have hsame := Dec.registerWord_err hres
      simp only at hsame
      simp [Dec.pin, hsame, he, Dec.afterData, hp]
    · rfl
  | some b =>
    have hc : d.completed w = b ++ w.extractLsb' 8 8 := by simp only [Dec.completed, hp, splitWord_high]
    rw [hc]
    obtain ⟨rs, cs, phase, latched, partialByte, win, cx, cy, fb, dirty, err, regs, frames⟩ := d
    obtain rfl : err = none := he
    obtain rfl : latched = some r := hl
    obtain rfl : partialByte = some b := hp
    simp only [framing, Dec.pins, Dec.pin, Dec.writeBytes, Dec.dataStrobe, Dec.dataBytes, Dec.dataWord,
      Option.isSome_none, Option.isNone_some, Bool.not_true, Bool.false_eq_true, if_false]
    generalize hres : Dec.registerWord p r _ _ = res
    obtain ⟨d', _ | e⟩ := res
    · have hsame := Dec.registerWord_err hres
      simp only at hsame
      simp [hsame, Dec.afterData, splitWord_low]
    · cases h : d'.err.isSome <;> simp [h]

/-! ## The transport -/

/-- An idle turn of the transport: no request waits for anything (40_transport R153). -/
theorem State.transportTurn_idle {s : State} (h : s.wire = []) :
    s.transportTurn = { s with owed := 0, enc := { s.enc with ready := true } } := by
  simp [State.transportTurn, h]

/-- Everything a turn of the transport does with a pin action on the wire (40_transport R149, R153). -/
theorem State.transportTurn_carries {s : State} {a : PinAction} {more : List PinAction}
    (h : s.wire = a :: more) :
    s.transportTurn = { s with
      wire := more, owed := s.owed - 1, dec := (s.dec.pin s.par a).1
      result := signalled (s.dec.pin s.par a).2
      enc := { s.enc with ready := s.enc.ready || decide (s.owed ≤ 1) } } := by
  simp [State.transportTurn, h, State.pinInput]

/-- A turn of the transport keeps the handshake of the request port good (10_state R44). -/
theorem State.transportTurn_readyOk {s : State} (h : s.ReadyOk) : s.transportTurn.ReadyOk := by
  obtain ⟨hlen, hready⟩ := h
  cases hw : s.wire with
  | nil => simp [State.transportTurn_idle hw, State.ReadyOk]
  | cons a more =>
    rw [State.transportTurn_carries hw]
    simp only [hw, List.length_cons] at hlen
    simp only [State.ReadyOk, Bool.or_eq_true, decide_eq_true_eq, hready]
    omega

/-- Events sent by the front end keep it good: the request waits for all that then stands on the wire
(40_transport R153). -/
theorem State.sent_readyOk (s : State) {evs : List Event} (h : evs ≠ []) (d : DeviceState) (r : RegAddr) :
    (s.sent evs d r).ReadyOk := by
  obtain ⟨ev, rest, rfl⟩ := List.exists_cons_of_ne_nil h
  simp [State.ReadyOk, State.sent]

/-- An event given to the transport from outside keeps it good (log 8). -/
theorem State.carry_readyOk {s : State} (ev : Event) (h : s.ReadyOk) : (s.carry ev).ReadyOk := by
  obtain ⟨hlen, hready⟩ := h
  refine ⟨?_, hready⟩
  simp only [State.carry_owed, State.carry_wire, List.length_append]
  omega

/-! ## Good decoder states -/

/-- A fault entry keeps a decoder good (60_exceptions R328). -/
theorem Dec.raise_ok {p : Params} {d : Dec} (e : ProtocolError) (h : d.Ok p) : (d.raise e).1.Ok p := by
  obtain ⟨h1, h2, h3, h4, h5, h6, h7, h8, h9⟩ := h
  exact ⟨h1, h2, h3, h4, h5, h6, h7, rfl, h9⟩

/-- A GRAM word keeps a decoder good (44_decoder R261). -/
theorem Dec.gramWrite_ok {p : Params} {d : Dec} (w : Word16) (h : d.Ok p) : (d.gramWrite p w).1.Ok p := by
  rcases d.gramWrite_cases p w with ⟨-, h'⟩ | ⟨-, -, h'⟩ | ⟨hw, hf, h'⟩ <;> rw [h']
  · exact Dec.raise_ok _ h
  · exact Dec.raise_ok _ h
  · obtain ⟨h1, h2, h3, h4, h5, h6, h7, h8, h9⟩ := h
    simp only [Dec.cursorInWindow, Dec.cursorInFramebuffer, decide_eq_true_eq] at hw hf
    have hadv := advance_mem_nat (w := mapWindow BitVec.toNat d.win) hw.1 hw.2.1 hw.2.2.1 hw.2.2.2
    refine ⟨Memory.write_wf _ _ h1, ?_, h3, h4, ?_, ?_, h7, h8, h9⟩
    · intro kv hkv
      rcases Memory.mem_write hkv with rfl | hm
      · exact cellIndex_lt hf.1 hf.2
      · exact h2 kv hm
    · exact lt_of_le_of_lt hadv.2.1 (BitVec.isLt _)
    · exact lt_of_le_of_lt hadv.2.2.2 (BitVec.isLt _)

/-- A word to a mapped register keeps a decoder good (44_decoder R260). -/
theorem Dec.registerWord_ok {p : Params} {d : Dec} {r : RegAddr} (w : Word16) (h : d.Ok p)
    (hr : p.mapped r = true) : (d.registerWord p r w).1.Ok p := by
  unfold Dec.registerWord
  split_ifs with g1 g2 g3 g4 g5 g6 g7
  · exact Dec.gramWrite_ok w h
  all_goals obtain ⟨h1, h2, h3, h4, h5, h6, h7, h8, h9⟩ := h
  · exact ⟨h1, h2, h3, h4, h5, h6, h7, h8, h9⟩
  · exact ⟨h1, h2, h3, h4, h5, h6, h7, h8, h9⟩
  · exact ⟨h1, h2, h3, h4, h5, h6, h7, h8, h9⟩
  · exact ⟨h1, h2, h3, h4, h5, h6, h7, h8, h9⟩
  · exact ⟨h1, h2, h3, h4, BitVec.isLt _, h6, h7, h8, h9⟩
  · exact ⟨h1, h2, h3, h4, h5, BitVec.isLt _, h7, h8, h9⟩
  · refine ⟨h1, h2, Memory.write_wf _ _ h3, ?_, h5, h6, h7, h8, h9⟩
    intro kv hkv
    rcases Memory.mem_write hkv with rfl | hm
    · exact ⟨r, rfl, hr, by simp [Params.unrecorded, g1, g2, g3, g4, g5, g6, g7]⟩
    · exact h4 kv hm

/-- The bytes of a data strobe keep a decoder good (44_decoder R257). -/
theorem Dec.dataBytes_ok {p : Params} (bytes : List Byte) {d : Dec} (h : d.Ok p) (he : d.err = none)
    (hl : d.latched.isSome = true) : (Dec.dataBytes p bytes d).1.Ok p := by
  induction bytes generalizing d with
  | nil => exact h
  | cons b bytes ih =>
    obtain ⟨r, hr⟩ := Option.isSome_iff_exists.mp hl
    unfold Dec.dataBytes
    cases hp : d.partialByte with
    | none =>
      refine ih ?_ he hl
      obtain ⟨h1, h2, h3, h4, h5, h6, h7, h8, h9⟩ := h
      exact ⟨h1, h2, h3, h4, h5, h6, h7, by simp [he, hr], fun _ => hl⟩
    | some high =>
      have hd : Dec.Ok p { d with partialByte := none, phase := .commandLatched } := by
        obtain ⟨h1, h2, h3, h4, h5, h6, h7, h8, h9⟩ := h
        exact ⟨h1, h2, h3, h4, h5, h6, h7, by simp [he, hr], by simp⟩
      have hmap : p.mapped r = true := h.2.2.2.2.2.2.1 r hr
      have hok := Dec.registerWord_ok (high ++ b) hd hmap
      simp only [Dec.dataWord, hr] at hok ⊢
      generalize hres : Dec.registerWord p r (high ++ b) _ = res at hok ⊢
      obtain ⟨d', _ | e⟩ := res
      · have hsame := Dec.registerWord_err hres
        exact ih hok (by simp [hsame.1, he]) (by simp [hsame.2.1])
      · exact hok

/-- Every pin action keeps a decoder good. -/
theorem Dec.pin_ok {p : Params} {d : Dec} (a : PinAction) (h : d.Ok p) : (d.pin p a).1.Ok p := by
  unfold Dec.pin
  split_ifs with he
  · exact h
  · have he : d.err = none := by simpa using he
    cases a with
    | selectMode m => exact h
    | selectChip c => exact h
    | delay ms => exact h
    | resetPulse l w =>
      obtain ⟨h1, h2, h3, h4, h5, h6, h7, h8, h9⟩ := h
      exact ⟨h1, h2, rfl, by simp [Dec.resetPulse], by simp [Dec.resetPulse], by simp [Dec.resetPulse],
        by simp [Dec.resetPulse], by simp [Dec.resetPulse, he], by simp [Dec.resetPulse]⟩
    | writeBytes bytes =>
      simp only [Dec.writeBytes]
      split_ifs
      · exact h
      · cases d.rs with
        | none => exact Dec.raise_ok _ h
        | some m =>
          cases m with
          | cmd =>
            rcases d.commandStrobe_cases p bytes with ⟨r, -, hr, h'⟩ | ⟨r, -, -, h'⟩ | ⟨-, h'⟩ <;>
              simp only [h']
            · obtain ⟨h1, h2, h3, h4, h5, h6, h7, h8, h9⟩ := h
              exact ⟨h1, h2, h3, h4, h5, h6, by rintro _ ⟨⟩; exact hr, by simp [he], by simp⟩
            · exact Dec.raise_ok _ h
            · exact Dec.raise_ok _ h
          | data =>
            simp only [Dec.dataStrobe]
            split_ifs with hl
            · exact Dec.raise_ok _ h
            · exact Dec.dataBytes_ok bytes h he (by
                cases hd : d.latched <;> simp_all)

theorem Dec.pins_ok {p : Params} (l : List PinAction) {d : Dec} (h : d.Ok p) : (Dec.pins p l d).1.Ok p := by
  induction l generalizing d with
  | nil => exact h
  | cons a l ih => exact ih (Dec.pin_ok a h)

theorem Dec.flush_ok {p : Params} {d : Dec} (h : d.Ok p) : (d.flush p).Ok p := by
  unfold Dec.flush
  split_ifs <;> exact h

theorem Dec.created_ok (p : Params) : (Dec.created p).Ok p :=
  ⟨rfl, by simp [Dec.created], rfl, by simp [Dec.created], by simp [Dec.created], by simp [Dec.created],
    by simp [Dec.created], rfl, by simp [Dec.created]⟩

end Sys2Proof.Machine
end

