-- ==== Sys2Proof/Laws/Geometry.lean ====
section
/-! SUPPORT. The loops of the rasterizer and the reads of the fonts end where the rules end them: the
circle's bound is never what stops its loop, and a well-formed font is never read outside its data. -/

namespace Sys2Proof.Machine

/-! ## The midpoint circle -/

/-- One iteration moves x up by one and never moves y up (43_raster_circles R231). -/
theorem Midpoint.update_xy (m : Midpoint) :
    m.update.x = m.x + 1 ∧ (m.update.y = m.y ∨ m.update.y = m.y - 1) := by
  unfold Midpoint.update
  split_ifs <;> simp

/-- Once the bound covers `y - x`, a larger bound changes nothing: the test `x < y` ends the loop. -/
theorem midpointWalk_fuel (m : Midpoint) (n k : Nat) (h : m.y - m.x ≤ n) :
    midpointWalk (n + k) m = midpointWalk n m := by
  induction n generalizing m with
  | zero =>
    cases k with
    | zero => rfl
    | succ k =>
      have : ¬ m.x < m.y := by omega
      simp [midpointWalk, this]
  | succ n ih =>
    rw [Nat.succ_add_eq_add_succ, Nat.add_succ]
    simp only [midpointWalk]
    split_ifs with hlt
    · obtain ⟨hx, hy⟩ := m.update_xy
      rw [ih m.update (by rcases hy with hy | hy <;> omega)]
    · rfl

/-- The iterations of a circle do not depend on the bound (log 21). -/
theorem circleIterations_fuel (r : Int) (n : Nat) (h : r.toNat ≤ n) :
    midpointWalk n (Midpoint.start r) = circleIterations r := by
  obtain ⟨k, rfl⟩ := Nat.exists_eq_add_of_le h
  exact midpointWalk_fuel _ _ _ (by simp only [Midpoint.start]; omega)

/-! ## Font memory -/

theorem memRead_isSome {array : List Byte} {a : Nat} (h : a < array.length) :
    (memRead array a).isSome = true := by simp [memRead, h]

/-- A font bit as the bit of the byte read, a byte outside the array as 0 (20_memory R79). -/
theorem fontBit_eq (array : List Byte) (a k : Nat) :
    fontBit array a k = (array[a]?.getD 0).getLsbD (7 - k) := by
  unfold fontBit memRead
  cases array[a]? <;> simp

/-- A well-formed fixed-cell font is read inside its data (20_memory R76, 45_text R292). -/
theorem FixedFont.reads_inside {f : FixedFont} {ch : Byte} {i : Nat} (h : f.wf = true)
    (h1 : ¬ ch < f.firstChar) (h2 : ¬ ch > f.lastChar) (hi : i < f.cellWidth) :
    (ch.toNat - f.firstChar.toNat) * f.cellWidth + i < f.data.length := by
  simp only [FixedFont.wf, Bool.and_eq_true, decide_eq_true_eq] at h
  rw [h.2]
  simp only [BitVec.lt_def, gt_iff_lt] at h1 h2
  have hle : ch.toNat - f.firstChar.toNat ≤ f.lastChar.toNat - f.firstChar.toNat := by omega
  calc (ch.toNat - f.firstChar.toNat) * f.cellWidth + i
      < (ch.toNat - f.firstChar.toNat) * f.cellWidth + f.cellWidth := by omega
    _ = (ch.toNat - f.firstChar.toNat + 1) * f.cellWidth := by ring
    _ ≤ _ := Nat.mul_le_mul_right _ (by omega)

/-- A bit of a glyph lies in the glyph. -/
theorem bitIndex_lt {w h i j : Nat} (hi : i < w) (hj : j < h) : j * w + i < w * h := by
  have : (j + 1) * w ≤ h * w := Nat.mul_le_mul_right _ hj
  rw [Nat.mul_comm w h]
  have e : (j + 1) * w = j * w + w := by ring
  omega

/-- A well-formed proportional font is read inside its bitmap (20_memory R76, 45_text R301). -/
theorem GfxFont.reads_inside {f : GfxFont} {g : GfxGlyph} {i j : Nat} (h : f.wf = true)
    (hg : g ∈ f.glyphs) (hi : i < g.width) (hj : j < g.height) :
    g.bitmapOffset + (j * g.width + i) / 8 < f.bitmap.length := by
  simp only [GfxFont.wf, Bool.and_eq_true, List.all_eq_true] at h
  have hw := h.2 g hg
  simp only [GfxGlyph.wf, Bool.and_eq_true, decide_eq_true_eq] at hw
  have hlt := bitIndex_lt hi hj
  have hend := hw.2
  omega

end Sys2Proof.Machine
end

