-- ==== Sys2Proof/Laws/PerInstr.lean ====
section
/-! SUPPORT. A statement made for each instruction: the words the encoder writes carry the fixed bits of
the instruction's row of spec/opcode_table.json, and stand on that row's port. -/

namespace Sys2Proof.Laws

/-- The port a row's form stands on: the table's formats REQ84, TXN17 and EVENT. -/
inductive Form where
  | req84
  | txn17
  | event
deriving DecidableEq, Repr

/-- A row of spec/opcode_table.json: its format, its mask and its match. -/
structure TableRow where
  form : Form
  mask : Nat
  fixed : Nat
deriving DecidableEq, Repr

/-- The row of each instruction. -/
def tableRow : Instr → TableRow
  | .reserved => ⟨.req84, 0xF, 0x0⟩
  | .init .. => ⟨.req84, 0xF, 0x1⟩
  | .setWindow .. => ⟨.req84, 0xF, 0x2⟩
  | .setRotation .. => ⟨.req84, 0xF, 0x3⟩
  | .setColorOrder .. => ⟨.req84, 0xF, 0x4⟩
  | .writeData16 .. => ⟨.req84, 0xF, 0x5⟩
  | .drawPixel .. => ⟨.req84, 0xF, 0x6⟩
  | .fillRect .. => ⟨.req84, 0xF, 0x7⟩
  | .drawLine .. => ⟨.req84, 0xF, 0x8⟩
  | .drawRect .. => ⟨.req84, 0xF, 0x9⟩
  | .drawCircle .. => ⟨.req84, 0xF, 0xA⟩
  | .fillCircle .. => ⟨.req84, 0xF, 0xB⟩
  | .drawCharFixed .. => ⟨.req84, 0xF, 0xC⟩
  | .drawStringFixed .. => ⟨.req84, 0xF, 0xD⟩
  | .drawCharGfx .. => ⟨.req84, 0xF, 0xE⟩
  | .drawStringGfx .. => ⟨.req84, 0xF, 0xF⟩
  | .cmd .. => ⟨.txn17, 0x1FF00, 0x00000⟩
  | .data .. => ⟨.txn17, 0x10000, 0x10000⟩
  | .eventCmd .. => ⟨.event, 0b11, 0b00⟩
  | .eventData .. => ⟨.event, 0b11, 0b01⟩
  | .eventDelay .. => ⟨.event, 0b11, 0b10⟩
  | .eventReset => ⟨.event, 0b11, 0b11⟩

/-- The bits of a port word that the table numbers. -/
def tableBits : PortWord → Form × Nat
  | .request q _ => (.req84, q.toNat)
  | .frame t => (.txn17, t.toNat)
  | .event tag _ => (.event, tag.toNat)

/-- The encoder writes the row's fixed bits on the row's port. -/
def EncodingMatchesTable.Statement (i : Instr) : Prop :=
  (tableBits (encode i)).1 = (tableRow i).form ∧
    (tableBits (encode i)).2 &&& (tableRow i).mask = (tableRow i).fixed

/-- The low four bits of a request word are its opcode (30_encoding R100). -/
theorem requestWord_low (op : BitVec 4) (a0 a1 a2 a3 a4 : BitVec 16) :
    (Machine.requestWord op a0 a1 a2 a3 a4).toNat &&& 0xF = op.toNat := by
  have h : Machine.fieldOp (Machine.requestWord op a0 a1 a2 a3 a4) = op := by
    apply BitVec.eq_of_getLsbD_eq
    intro i hi
    rw [Machine.fieldOp, Machine.requestWord, BitVec.getLsbD_extractLsb', Nat.zero_add,
      BitVec.getLsbD_append]
    simp [hi]
  have h' := congrArg BitVec.toNat h
  rw [Machine.fieldOp, BitVec.extractLsb'_toNat, Nat.shiftRight_zero] at h'
  rw [← h', show (0xF : Nat) = 2 ^ 4 - 1 from rfl, Nat.and_two_pow_sub_one_eq_mod]

namespace EncodingMatchesTable

theorem reserved : Statement .reserved := ⟨rfl, requestWord_low _ _ _ _ _ _⟩

theorem init (width height rotation : Int) : Statement (.init width height rotation) :=
  ⟨rfl, requestWord_low _ _ _ _ _ _⟩

theorem setWindow (x1 y1 x2 y2 : Int) : Statement (.setWindow x1 y1 x2 y2) :=
  ⟨rfl, requestWord_low _ _ _ _ _ _⟩

theorem setRotation (rotation : Int) : Statement (.setRotation rotation) :=
  ⟨rfl, requestWord_low _ _ _ _ _ _⟩

theorem setColorOrder (isRgb : Bool) : Statement (.setColorOrder isRgb) :=
  ⟨rfl, requestWord_low _ _ _ _ _ _⟩

theorem writeData16 (word : Word16) : Statement (.writeData16 word) := ⟨rfl, requestWord_low _ _ _ _ _ _⟩

theorem drawPixel (x y : Int) (color : Color) : Statement (.drawPixel x y color) :=
  ⟨rfl, requestWord_low _ _ _ _ _ _⟩

theorem fillRect (x y w h : Int) (color : Color) : Statement (.fillRect x y w h color) :=
  ⟨rfl, requestWord_low _ _ _ _ _ _⟩

theorem drawLine (x0 y0 x1 y1 : Int) (color : Color) : Statement (.drawLine x0 y0 x1 y1 color) :=
  ⟨rfl, requestWord_low _ _ _ _ _ _⟩

theorem drawRect (x y w h : Int) (color : Color) : Statement (.drawRect x y w h color) :=
  ⟨rfl, requestWord_low _ _ _ _ _ _⟩

theorem drawCircle (x y r : Int) (color : Color) : Statement (.drawCircle x y r color) :=
  ⟨rfl, requestWord_low _ _ _ _ _ _⟩

theorem fillCircle (x y r : Int) (color : Color) : Statement (.fillCircle x y r color) :=
  ⟨rfl, requestWord_low _ _ _ _ _ _⟩

theorem drawCharFixed (x y : Int) (ch : Byte) (color : Color) (size : Int) :
    Statement (.drawCharFixed x y ch color size) := ⟨rfl, requestWord_low _ _ _ _ _ _⟩

theorem drawStringFixed (x y : Int) (color : Color) (size : Int) (payload : List Byte) :
    Statement (.drawStringFixed x y color size payload) := ⟨rfl, requestWord_low _ _ _ _ _ _⟩

theorem drawCharGfx (x y : Int) (ch : Byte) (color : Color) : Statement (.drawCharGfx x y ch color) :=
  ⟨rfl, requestWord_low _ _ _ _ _ _⟩

theorem drawStringGfx (x y : Int) (color : Color) (payload : List Byte) :
    Statement (.drawStringGfx x y color payload) := ⟨rfl, requestWord_low _ _ _ _ _ _⟩

theorem cmd (reg : RegAddr) : Statement (.cmd reg) := by
  refine ⟨rfl, ?_⟩
  simp only [tableBits, encode, tableRow]
  revert reg; decide

theorem data (word : Word16) : Statement (.data word) := by
  refine ⟨rfl, ?_⟩
  have h : word.toNat < 2 ^ 16 := word.isLt
  simp only [tableBits, encode, tableRow, BitVec.toNat_append]
  rw [show (0x10000 : Nat) = 2 ^ 16 from rfl, Nat.and_two_pow, Nat.testBit_or,
    Nat.testBit_lt_two_pow h]
  decide

theorem eventCmd (reg : RegAddr) : Statement (.eventCmd reg) :=
  ⟨rfl, by simp [tableBits, encode, tableRow]⟩

theorem eventData (word : Word16) : Statement (.eventData word) :=
  ⟨rfl, by simp [tableBits, encode, tableRow]⟩

theorem eventDelay (ms : Nat) : Statement (.eventDelay ms) :=
  ⟨rfl, by simp [tableBits, encode, tableRow]⟩

theorem eventReset : Statement .eventReset := ⟨rfl, rfl⟩

end EncodingMatchesTable

end Sys2Proof.Laws
end

