-- ==== Sys2Proof/Tests/Slice0.lean ====
section
/-! SUPPORT. Tests: ill-formed terms that WellFormed refuses, words written out from the spec's encodings,
one or two small steps for each instruction with expected values from 95_test_vectors, and for each
statement with hypotheses a state and operands that meet them. -/

namespace Sys2Proof.Tests

open Sys2Proof Sys2Proof.Machine

/-! ## WellFormed refuses ill-formed terms -/

theorem test_wf_init : (Instr.init 32768 1 0).wf = false ∧ (Instr.init 1 (-32769) 0).wf = false ∧
    (Instr.init 1 1 32768).wf = false ∧ (Instr.init 32767 (-32768) 0).wf = true := by decide

theorem test_wf_setWindow : (Instr.setWindow 32768 0 0 0).wf = false ∧
    (Instr.setWindow 0 32768 0 0).wf = false ∧ (Instr.setWindow 0 0 32768 0).wf = false ∧
    (Instr.setWindow 0 0 0 (-32769)).wf = false := by decide

theorem test_wf_setRotation : (Instr.setRotation 40000).wf = false := by decide

theorem test_wf_drawPixel : (Instr.drawPixel 32768 0 0).wf = false ∧
    (Instr.drawPixel 0 (-32769) 0).wf = false := by decide

theorem test_wf_fillRect : (Instr.fillRect 32768 0 1 1 0).wf = false ∧
    (Instr.fillRect 0 32768 1 1 0).wf = false ∧ (Instr.fillRect 0 0 32768 1 0).wf = false ∧
    (Instr.fillRect 0 0 1 32768 0).wf = false := by decide

theorem test_wf_drawLine : (Instr.drawLine 32768 0 1 1 0).wf = false ∧
    (Instr.drawLine 0 32768 1 1 0).wf = false ∧ (Instr.drawLine 0 0 32768 1 0).wf = false ∧
    (Instr.drawLine 0 0 1 32768 0).wf = false := by decide

theorem test_wf_drawRect : (Instr.drawRect 32768 0 1 1 0).wf = false ∧
    (Instr.drawRect 0 32768 1 1 0).wf = false ∧ (Instr.drawRect 0 0 32768 1 0).wf = false ∧
    (Instr.drawRect 0 0 1 32768 0).wf = false := by decide

theorem test_wf_circles : (Instr.drawCircle 32768 0 1 0).wf = false ∧
    (Instr.drawCircle 0 32768 1 0).wf = false ∧ (Instr.drawCircle 0 0 32768 0).wf = false ∧
    (Instr.fillCircle 32768 0 1 0).wf = false ∧ (Instr.fillCircle 0 32768 1 0).wf = false ∧
    (Instr.fillCircle 0 0 32768 0).wf = false := by decide

theorem test_wf_chars : (Instr.drawCharFixed 32768 0 0 0 1).wf = false ∧
    (Instr.drawCharFixed 0 32768 0 0 1).wf = false ∧ (Instr.drawCharFixed 0 0 0 0 32768).wf = false ∧
    (Instr.drawCharGfx 32768 0 0 0).wf = false ∧ (Instr.drawCharGfx 0 32768 0 0).wf = false := by decide

theorem test_wf_strings : (Instr.drawStringFixed 32768 0 0 1 []).wf = false ∧
    (Instr.drawStringFixed 0 32768 0 1 []).wf = false ∧
    (Instr.drawStringFixed 0 0 0 32768 []).wf = false ∧
    (Instr.drawStringGfx 32768 0 0 []).wf = false ∧ (Instr.drawStringGfx 0 32768 0 []).wf = false := by
  decide

theorem test_wf_payload : (Instr.drawStringFixed 0 0 0 1 (List.replicate 65536 0)).wf = false ∧
    (Instr.drawStringGfx 0 0 0 (List.replicate 65536 0)).wf = false := by
  simp only [Instr.wf, fitsPayload, List.length_replicate]
  decide

/-- One ill-formed set for each check of `Params.wf` (00_scope R8, 20_memory R76, 41_encoder_config R172,
log 13). -/
theorem test_wf_params :
    defaultParams.wf = true ∧ ({ defaultParams with regHE := 0x37 } : Params).wf = false ∧
    ({ defaultParams with entryAmBit := 4 } : Params).wf = false ∧
    ({ defaultParams with entryOrdBit := 16 } : Params).wf = false ∧
    ({ defaultParams with initSequence := [.writeReg 0x22 0] } : Params).wf = false ∧
    ({ defaultParams with fbW := 0 } : Params).wf = false ∧
    ({ defaultParams with fixedFont := { exampleFixedFont with data := [] } } : Params).wf = false ∧
    ({ defaultParams with gfxFont := { exampleGfxFont with bitmap := [] } } : Params).wf = false := by decide

/-- One ill-formed font for each length check (45_text R291, R300). -/
theorem test_wf_fonts :
    exampleFixedFont.wf = true ∧ exampleGfxFont.wf = true ∧
    ({ exampleFixedFont with data := [0x78] } : FixedFont).wf = false ∧
    ({ exampleFixedFont with cellHeight := 9 } : FixedFont).wf = false ∧
    ({ exampleGfxFont with bitmap := [] } : GfxFont).wf = false ∧
    ({ exampleGfxFont with last := 0x22 } : GfxFont).wf = false := by decide

/-! ## Every constructor from a word written out from its encoding -/

theorem test_decode_reserved : decode (.request 0x0000_0000_0000_0000_0000_0 []) = .ok .reserved := by decide

theorem test_decode_init :
    decode (.request 0x0000_0000_0000_00DC_00B0_1 []) = .ok (.init 176 220 0) := by decide

theorem test_decode_setWindow :
    decode (.request 0x0000_012C_012C_FFF6_FFF6_2 []) = .ok (.setWindow (-10) (-10) 300 300) := by decide

theorem test_decode_setRotation :
    decode (.request 0x0000_0000_0000_0000_FFFF_3 []) = .ok (.setRotation (-1)) := by decide

theorem test_decode_setColorOrder :
    decode (.request 0x0000_0000_0000_0000_0005_4 []) = .ok (.setColorOrder true) ∧
    decode (.request 0x0000_0000_0000_0000_0000_4 []) = .ok (.setColorOrder false) := by decide

theorem test_decode_writeData16 :
    decode (.request 0x0000_0000_0000_0000_F800_5 []) = .ok (.writeData16 0xF800) := by decide

theorem test_decode_drawPixel :
    decode (.request 0x0000_0000_F800_006E_0058_6 []) = .ok (.drawPixel 88 110 0xF800) := by decide

theorem test_decode_fillRect :
    decode (.request 0x001F_0004_0004_FFFE_FFFE_7 []) = .ok (.fillRect (-2) (-2) 4 4 0x1F) := by decide

theorem test_decode_drawLine :
    decode (.request 0xFFFF_0001_FFFD_0000_0000_8 []) = .ok (.drawLine 0 0 (-3) 1 0xFFFF) := by decide

theorem test_decode_drawRect :
    decode (.request 0x00FF_0004_0003_00DA_00AE_9 []) = .ok (.drawRect 174 218 3 4 0xFF) := by decide

theorem test_decode_drawCircle :
    decode (.request 0x0000_F800_0003_000A_000B_A []) = .ok (.drawCircle 11 10 3 0xF800) := by decide

theorem test_decode_fillCircle :
    decode (.request 0x0000_07E0_0002_0005_0006_B []) = .ok (.fillCircle 6 5 2 0x7E0) := by decide

/-- V-ENC-5: the high byte of the character field is ignored. -/
theorem test_decode_drawCharFixed :
    decode (.request 0x0002_0001_0141_0014_000A_C []) = .ok (.drawCharFixed 10 20 0x41 1 2) := by decide

theorem test_decode_drawStringFixed :
    decode (.request 0x0000_0002_0001_0006_0005_D [0x41, 0x42]) =
      .ok (.drawStringFixed 5 6 1 2 [0x41, 0x42]) := by decide

theorem test_decode_drawCharGfx :
    decode (.request 0x0000_0001_0321_0014_000A_E []) = .ok (.drawCharGfx 10 20 0x21 1) := by decide

/-- V-ENC-4. -/
theorem test_decode_drawStringGfx :
    decode (.request 0x0000_0000_0001_0014_000A_F [0x21, 0x0A, 0x21]) =
      .ok (.drawStringGfx 10 20 1 [0x21, 0x0A, 0x21]) := by decide

/-- V-ENC-8, and a frame with a bad high byte. -/
theorem test_decode_cmd : decode (.frame 0x00022) = .ok (.cmd 0x22) ∧
    decode (.frame 0x00122) = .error (.commandFrameHighByte 0x00122) := by decide

/-- V-ENC-9. -/
theorem test_decode_data : decode (.frame 0x1F800) = .ok (.data 0xF800) := by decide

theorem test_decode_events :
    decode (.event 0b00 0x22) = .ok (.eventCmd 0x22) ∧ decode (.event 0b01 0xF800) = .ok (.eventData 0xF800) ∧
    decode (.event 0b10 40) = .ok (.eventDelay 40) ∧ decode (.event 0b11 0) = .ok .eventReset := by decide

/-- The same words as the opcode table numbers them. -/
theorem test_decodeTableWord :
    decodeTableWord 88 0x1 = some (.init 0 0 0) ∧ decodeTableWord 24 0x22 = some (.cmd 0x22) ∧
    decodeTableWord 24 0x10000 = some (.data 0) ∧ decodeTableWord 8 3 = some .eventReset := by decide

/-- 30_encoding R130, R131: the written forms. -/
theorem test_text :
    requestText (.init 176 220 0) = "INIT 176, 220, 0" ∧
    requestText (.writeData16 0xF800) = "WRITE_DATA16 0xF800" ∧
    eventText (.cmd 0x22) = "C 22" ∧ eventText (.data 0xF800) = "D F800" := by
  refine ⟨?_, ?_, ?_, ?_⟩ <;> rfl

/-! ## Small steps -/

/-- The device after `INIT 176, 220, 0` (95_test_vectors section 0). -/
def device176 : DeviceState where
  width := 176
  height := 220
  rotation := 0
  colorOrder := .bgr
  win := ⟨0, 0, 175, 219⟩
  cx := 0
  cy := 0

/-- "After INIT" of 95_test_vectors section 0, its events carried and `E.out` cleared. -/
def afterInit : State := { State.reset with
  enc := { Front.powerOn with dev := some device176, latched := some 0x22 }
  dec := { Dec.created defaultParams with
    rs := some .cmd, phase := .commandLatched, latched := some 0x22, regs := [(3, 0x1030)] } }

/-- The events a request has emitted. -/
def outOf : Host.Outcome State Fault Refusal → List Event
  | .next t => t.enc.out
  | _ => []

/-- The records it has logged. -/
def logOf : Host.Outcome State Fault Refusal → List LogRecord
  | .next t => t.enc.log
  | _ => []

/-- The pen it has left. -/
def penOf : Host.Outcome State Fault Refusal → Option Int × Option Int
  | .next t => (t.enc.penX, t.enc.penY)
  | _ => (none, none)

/-- The decoder it has left. -/
def decOf : Host.Outcome State Fault Refusal → Dec
  | .next t => t.dec
  | _ => Dec.created defaultParams

/-- The cells plotted, read off the addresses sent. -/
def plotsOf : List Event → List (Nat × Nat)
  | .cmd 0x20 :: .data x :: .cmd 0x21 :: .data y :: rest => (x.toNat, y.toNat) :: plotsOf rest
  | _ :: rest => plotsOf rest
  | [] => []

/-- V-ENC-7. -/
theorem test_reserved : exec .reserved State.reset = .next (State.reset.logged 0x03 0x0) := by rfl

/-- V-INIT-1. -/
theorem test_init : outOf (exec (.init 176 220 0) State.reset) =
    [.reset, .cmd 3, .data 0x1030, .cmd 0x37, .data 0, .cmd 0x36, .data 0xAF, .cmd 0x39, .data 0,
     .cmd 0x38, .data 0xDB, .cmd 0x20, .data 0, .cmd 0x21, .data 0, .cmd 0x22] := by decide

/-- V-INIT-8. -/
theorem test_init_sequence :
    (outOf (exec (.init 176 220 0) { State.reset with
      par := { defaultParams with initSequence := [.writeReg 0x10 0, .delay 40] } })).take 6 =
    [.reset, .cmd 0x10, .data 0, .delay 40, .cmd 3, .data 0x1030] := by decide

/-- V-SW-2. -/
theorem test_setWindow : outOf (exec (.setWindow 5 9 2 3) afterInit) =
    [.cmd 0x37, .data 2, .cmd 0x36, .data 5, .cmd 0x39, .data 3, .cmd 0x38, .data 9, .cmd 0x20, .data 2,
     .cmd 0x21, .data 3, .cmd 0x22] := by decide

/-- V-SW-4: clamped, not dropped. -/
theorem test_setWindow_clamped : (outOf (exec (.setWindow 200 0 250 0) afterInit)).take 4 =
    [.cmd 0x37, .data 0xAF, .cmd 0x36, .data 0xAF] := by decide

/-- V-ROT-1, V-ROT-3. -/
theorem test_setRotation : outOf (exec (.setRotation 4) afterInit) = [.cmd 3, .data 0x1038] ∧
    logOf (exec (.setRotation 8) afterInit) = [⟨0x02, 0x3⟩] := by decide

/-- V-COL-1, V-COL-3. -/
theorem test_setColorOrder : outOf (exec (.setColorOrder true) afterInit) = [.cmd 3, .data 0x0030] ∧
    outOf (exec (.setColorOrder false) afterInit) = [] := by decide

/-- V-WD-2: GRAM is reopened after a configuration write. -/
theorem test_writeData16 : outOf (exec (.writeData16 0xAAAA) afterInit) = [.data 0xAAAA] ∧
    outOf (exec (.writeData16 0xAAAA)
      { afterInit with enc := { afterInit.enc with latched := some 3 } }) =
      [.cmd 0x22, .data 0xAAAA] := by decide

/-- V-WD-3. -/
theorem test_unconfigured : exec (.writeData16 0x1234) State.reset =
    .next (State.reset.logged 0x01 0x5) := by rfl

/-- V-PIX-1, V-PIX-5. -/
theorem test_drawPixel : outOf (exec (.drawPixel 88 110 0xF800) afterInit) =
    [.cmd 0x37, .data 0x58, .cmd 0x36, .data 0x58, .cmd 0x39, .data 0x6E, .cmd 0x38, .data 0x6E,
     .cmd 0x20, .data 0x58, .cmd 0x21, .data 0x6E, .cmd 0x22, .data 0xF800] ∧
    logOf (exec (.drawPixel (-1) 0 3) afterInit) = [⟨0x02, 0x6⟩] := by decide

/-- V-FR-1. -/
theorem test_fillRect : outOf (exec (.fillRect (-2) (-2) 4 4 0x1F) afterInit) =
    [.cmd 0x37, .data 0, .cmd 0x36, .data 1, .cmd 0x39, .data 0, .cmd 0x38, .data 1, .cmd 0x20, .data 0,
     .cmd 0x21, .data 0, .cmd 0x22, .data 0x1F, .data 0x1F, .data 0x1F, .data 0x1F] := by decide

/-- V-FR-5. -/
theorem test_fillRect_empty : logOf (exec (.fillRect (-5) (-5) 5 5 1) afterInit) = [⟨0x02, 0x7⟩] := by
  decide

/-- V-LINE-1, V-LINE-3 (steep), V-LINE-6 (negative slope). -/
theorem test_drawLine :
    plotsOf (outOf (exec (.drawLine 0 0 5 2 1) afterInit)) =
      [(0, 0), (1, 0), (2, 1), (3, 1), (4, 2), (5, 2)] ∧
    lineCells 0 0 2 5 = [⟨0, 0⟩, ⟨0, 1⟩, ⟨1, 2⟩, ⟨1, 3⟩, ⟨2, 4⟩, ⟨2, 5⟩] ∧
    lineCells 0 3 3 0 = [⟨0, 3⟩, ⟨1, 2⟩, ⟨2, 1⟩, ⟨3, 0⟩] := by decide

/-- V-LINE-9: clipped pixel by pixel, nothing logged. -/
theorem test_drawLine_clipped : plotsOf (outOf (exec (.drawLine 0 0 (-3) 1 1) afterInit)) = [(0, 0)] ∧
    logOf (exec (.drawLine 0 0 (-3) 1 1) afterInit) = [] := by decide

/-- V-DR-1. -/
theorem test_drawRect : plotsOf (outOf (exec (.drawRect 1 1 3 2 0xFF) afterInit)) =
    [(1, 1), (2, 1), (3, 1), (3, 1), (3, 2), (1, 2), (2, 2), (3, 2), (1, 1), (1, 2)] := by decide +kernel

/-- V-DR-3, V-DR-5. -/
theorem test_drawRect_dropped : logOf (exec (.drawRect 0 0 0 4 1) afterInit) = [⟨0x02, 0x9⟩] ∧
    logOf (exec (.drawRect 200 0 3 3 1) afterInit) = [] := by decide

/-- V-CIRC-2. -/
theorem test_drawCircle : plotsOf (outOf (exec (.drawCircle 5 5 2 1) afterInit)) =
    [(5, 7), (5, 3), (7, 5), (3, 5), (6, 7), (4, 7), (6, 3), (4, 3), (7, 6), (3, 6), (7, 4), (3, 4),
     (7, 6), (3, 6), (7, 4), (3, 4), (6, 7), (4, 7), (6, 3), (4, 3)] := by decide +kernel

/-- V-CACC-1, V-CACC-2. -/
theorem test_drawCircle_dropped : logOf (exec (.drawCircle 1 5 2 1) afterInit) = [⟨0x02, 0xA⟩] ∧
    logOf (exec (.drawCircle 5 5 0 1) afterInit) = [⟨0x02, 0xA⟩] := by decide

/-- V-FILL-1. -/
theorem test_fillCircle : plotsOf (outOf (exec (.fillCircle 5 5 1 1) afterInit)) =
    [(4, 5), (5, 5), (6, 5), (5, 6), (5, 4), (4, 5), (5, 5), (6, 5), (4, 5), (5, 5), (6, 5)] := by decide +kernel

/-- V-CACC-10. -/
theorem test_fillCircle_dropped : logOf (exec (.fillCircle 1 1 2 1) afterInit) = [⟨0x02, 0xB⟩] := by decide

/-- V-CF-1. -/
theorem test_drawCharFixed :
    plotsOf (outOf (exec (.drawCharFixed 10 20 0x41 1 1) afterInit)) =
      [(10, 21), (10, 22), (10, 23), (10, 24), (11, 20), (11, 22), (12, 21), (12, 22), (12, 23), (12, 24)] ∧
    penOf (exec (.drawCharFixed 10 20 0x41 1 1) afterInit) = (some 14, some 20) := by decide +kernel

/-- V-CF-4: the pen is not written. -/
theorem test_drawCharFixed_dropped : logOf (exec (.drawCharFixed 10 20 0x41 1 0) afterInit) = [⟨0x02, 0xC⟩] ∧
    penOf (exec (.drawCharFixed 10 20 0x41 1 0) afterInit) = (none, none) := by decide

/-- V-SF-2: 0x0A is an ordinary character, and one outside the font does not advance. -/
theorem test_drawStringFixed :
    (plotsOf (outOf (exec (.drawStringFixed 0 0 1 1 [0x41, 0x0A, 0x42]) afterInit))).drop 10 =
      [(4, 0), (4, 1), (4, 2), (4, 3), (4, 4), (5, 0), (5, 2), (5, 4), (6, 1), (6, 3)] ∧
    penOf (exec (.drawStringFixed 0 0 1 1 [0x41, 0x0A, 0x42]) afterInit) = (some 8, some 0) := by decide +kernel

/-- V-CG-1, V-CG-4. -/
theorem test_drawCharGfx :
    plotsOf (outOf (exec (.drawCharGfx 10 20 0x21 1) afterInit)) = [(10, 18), (12, 18), (11, 19)] ∧
    penOf (exec (.drawCharGfx 10 20 0x21 1) afterInit) = (some 14, some 20) ∧
    penOf (exec (.drawCharGfx 10 20 0x0A 1) afterInit) = (some 10, some 20) := by decide

/-- V-SG-1: the newline goes back to the string's column. -/
theorem test_drawStringGfx :
    plotsOf (outOf (exec (.drawStringGfx 10 20 1 [0x21, 0x0A, 0x21]) afterInit)) =
      [(10, 18), (12, 18), (11, 19), (10, 26), (12, 26), (11, 27)] ∧
    penOf (exec (.drawStringGfx 10 20 1 [0x21, 0x0A, 0x21]) afterInit) = (some 14, some 28) := by decide +kernel

/-- V-DEC-2. -/
theorem test_cmd_unmapped : (decOf (exec (.cmd 0x99) State.reset)).err = some (.unmappedRegister 0x99) ∧
    (decOf (exec (.cmd 0x99) State.reset)).latched = none := by decide

/-- V-DEC-1, and one pixel. -/
theorem test_data : (decOf (exec (.data 0x1234) State.reset)).err = some .dataWithoutCommand ∧
    (decOf (exec (.data 0xF800) afterInit)).fb = [(0, 0xF800)] ∧
    (decOf (exec (.data 0xF800) afterInit)).cx = 1 := by decide

/-- V-TR-1, V-TR-2, V-TR-3. -/
theorem test_events :
    framing (.cmd 0x22) = [.selectMode .cmd, .selectChip true, .writeBytes [0x22], .selectChip false] ∧
    framing (.data 0xF800) =
      [.selectMode .data, .selectChip true, .writeBytes [0xF8, 0x00], .selectChip false] ∧
    framing .reset = [.resetPulse true true] ∧ framing (.delay 40) = [.delay 40] := by decide

/-- V-TR-4, V-TR-6. -/
theorem test_advance : advance (⟨0, 0, 1, 1⟩ : Window Int) 1 0 = (0, 1) ∧
    advance (⟨0, 0, 1, 1⟩ : Window Int) 1 1 = (0, 0) ∧
    advance (⟨2, 3, 4, 9⟩ : Window Int) 4 9 = (2, 3) := by decide

/-- The BGR column of 30_encoding R121. -/
theorem test_entryWords : (List.range 8).map (fun r => defaultParams.entryWord (BitVec.ofNat 3 r) .bgr) =
    [0x1030, 0x1020, 0x1000, 0x1010, 0x1038, 0x1028, 0x1008, 0x1018] := by decide

/-- A table whose rotations 6 and 7 have the same fields. -/
def doubledTable : Vector EntryFields 8 := defaultEntryTable.set 7 ⟨false, false, true⟩

/-- 30_encoding R125: under a table that is not injective no word has a rotation. -/
theorem test_rotationOf : defaultParams.rotationOf 0x1038 = some 4 ∧
    ({ defaultParams with entryTable := doubledTable } : Params).rotationOf 0x1038 = none := by decide

/-- 10_state R44: `E.ready` is 1 with a request's own last event, though one given from outside stands
behind it, and 0 until then. -/
theorem test_ready :
    let given : State := ((afterInit.emitData 0xF800).carry (.delay 40))
    (State.transportTurn^[3] given).enc.ready = false ∧ (State.transportTurn^[4] given).enc.ready = true ∧
    (State.transportTurn^[4] given).wire = [.delay 40] ∧ (State.transportTurn^[4] given).owed = 0 := by decide

/-- V-DEC-7, V-DEC-8: bytes pair up across chip-select frames. -/
theorem test_pairing :
    (Dec.pins defaultParams [.selectMode .data, .selectChip true, .writeBytes [0xF8], .selectChip false,
      .selectChip true, .writeBytes [0x00, 0x07]] afterInit.dec).1.fb = [(0, 0xF800)] ∧
    (Dec.pins defaultParams [.selectMode .data, .selectChip true, .writeBytes [0xF8], .selectChip false,
      .selectChip true, .writeBytes [0x00, 0x07]] afterInit.dec).1.partialByte = some 0x07 := by decide

/-! ## States and operands that meet the hypotheses of the statements -/

/-- `afterInit` with inputs presented. -/
def asked (inputs : List Input) : State := { afterInit with inputs := inputs }

/-- `afterInit` with pin actions of a request's event on the wire. -/
def carrying (wire : List PinAction) (inputs : List Input) : State :=
  { afterInit with wire := wire, owed := wire.length, inputs := inputs
                   enc := { afterInit.enc with ready := false } }

/-- `afterInit` with another decoder. -/
def mirroring (d : Dec) : State := { afterInit with dec := d }

/-- A decoder with the chip selected in a mode. -/
def selected (m : Option Mode) (latched : Option RegAddr) : Dec :=
  { Dec.created defaultParams with rs := m, cs := true, latched := latched }

theorem witness_DecodeEncodeRoundTrip :
    (Instr.drawPixel (-32768) 32767 0xFFFF).wf = true ∧
    decode (.frame 0x1FFFF) = .ok (.data 0xFFFF) := by decide

theorem witness_RequestDecodedByOpcodeAlone : (List.replicate 65535 (0 : Byte)).length ≤ 65535 := by
  rw [List.length_replicate]

theorem witness_BlankFieldsIgnored :
    (0x1111_2222_F800_006E_0058_6#84).setWidth 4 = (0x0000_0000_F800_006E_0058_6#84).setWidth 4 ∧
    (∀ k, k < operandCount ((0x1111_2222_F800_006E_0058_6#84).setWidth 4) →
      operandField 0x1111_2222_F800_006E_0058_6#84 k = operandField 0x0000_0000_F800_006E_0058_6#84 k) ∧
    encode (.setRotation (-1)) = .request 0x0000_0000_0000_0000_FFFF_3#84 [] := by decide

theorem witness_OperandsReadByName : (List.replicate 65535 (0 : Byte)).length ≤ 65535 ∧
    65535 < (List.replicate 65536 (0 : Byte)).length := by
  rw [List.length_replicate, List.length_replicate]; decide

theorem witness_FramesAndEventsDecoded :
    (255#17).toNat < 256 ∧ 256 ≤ (256#17).toNat ∧ (65535#17).toNat < 65536 ∧
    65536 ≤ (65536#17).toNat := by decide

theorem witness_EntryWordBits : defaultParams.entryBitsWf = true ∧
    (∀ a b, defaultParams.entryFields a = defaultParams.entryFields b → a = b) ∧
    ∃ a b, a ≠ b ∧ ({ defaultParams with entryTable := doubledTable } : Params).entryFields a =
      ({ defaultParams with entryTable := doubledTable } : Params).entryFields b := by decide

theorem witness_StepRunsDecodedInstruction :
    (asked [.instr (.request 0x5 [])]).par.wf = true ∧
    decode (.request 0x5 []) = .ok (.writeData16 0) ∧
    (asked [.instr (.request 0x5 [])]).enc.ready = true ∧
    (asked [.instr (.frame 0x22)]).midEvent = false ∧ decode (.frame 0x22) = .ok (.cmd 0x22) ∧
    decode (.event 0b10 40) = .ok (.eventDelay 40) ∧
    decodeTableWord 88 0x3 = some (.setRotation 0) := by decide

theorem witness_IllFormedInputsRefused :
    (carrying [] [.instr (.request 0x5 [])]).par.wf = true ∧
    (carrying [] [.instr (.request 0x5 [])]).enc.ready = false ∧
    (carrying [.selectChip true] [.instr (.frame 0x22)]).wire = [.selectChip true] ∧
    (carrying [.writeBytes [0x22]] [.pin (.resetPulse true true)]).wire = [.writeBytes [0x22]] ∧
    decode (.frame 0x100) = .error (.commandFrameHighByte 0x100) ∧
    decode (.event 0b00 256) = .error (.eventArgument 0b00 256) ∧
    ¬ [0x37#8, 0x37#8, 0x39, 0x38, 0x20, 0x21, 0x22, 0x03].Nodup ∧ ¬ [12, 5, 4, 4].Nodup ∧
    (∃ b ∈ [16, 5, 4, 3], 15 < b) ∧
    InitStep.writeReg defaultParams.regGram 0 ∈ [InitStep.writeReg 0x22 0] ∧
    [0x78#8].length ≠ ((0x42#8).toNat - (0x41#8).toNat + 1) * 3 ∧
    (∃ g ∈ exampleGfxFont.glyphs, ([] : List Byte).length < g.bitmapOffset + (g.width * g.height + 7) / 8) := by
  decide

/-- A string payload one byte too long does not decode. -/
theorem witness_IllFormedInputsRefused_payload :
    decode (.request 0xD (List.replicate 65536 0)) = .error (.payloadTooLong 65536) := by
  have h : fitsPayload (List.replicate 65536 (0 : Byte)) = false := by
    simp only [fitsPayload, List.length_replicate]; decide
  simp only [decode, decodeRequest, h, List.length_replicate]
  rfl

theorem witness_TransportCarriesTheWireInOrder :
    (asked []).inputs = [] ∧ (carrying [.delay 1] [.transport]).inputs = [.transport] ∧
    (carrying [.delay 1] [.awaitReady]).enc.ready = false ∧
    (carrying [.delay 1] [.awaitReady]).wire = [.delay 1] ∧ (asked [.transport]).wire = [] ∧
    (carrying [.delay 1] [.awaitReady]).owed ≤ (carrying [.delay 1] [.awaitReady]).wire.length := by decide

theorem witness_HostInputsReachTheDecoder :
    (asked [.awaitReady]).enc.ready = true ∧ (asked [.pin (.selectChip true)]).midEvent = false ∧
    (asked [.flush]).inputs = [.flush] ∧ (asked [.createDecoder]).inputs = [.createDecoder] := by decide

theorem witness_ReadPortAnswers :
    (asked [.read (.pixel 175 219)]).inputs = [.read (.pixel (175 : Nat) (219 : Nat))] ∧
    175 < defaultParams.fbW ∧ 219 < defaultParams.fbH ∧ defaultParams.mapped 0x03 = true ∧
    defaultParams.mapped 0x99 = false ∧ (defaultParams.fbW : Int) ≤ 176 ∧
    (asked [.read (.pixel 176 0)]).inputs = [.read (.pixel 176 0)] ∧
    (asked [.read (.reg 0x99)]).inputs = [.read (.reg 0x99)] := by decide

/-- A good decoder, as the mirror clause asks. -/
theorem witness_ReadPortAnswers_mirror : (mirroring (Dec.created defaultParams)).dec.Ok defaultParams ∧
    (0x22 : RegAddr) ∈ [defaultParams.regHS, defaultParams.regHE, defaultParams.regVS, defaultParams.regVE,
      defaultParams.regAX, defaultParams.regAY, defaultParams.regGram] :=
  ⟨Dec.created_ok _, by decide⟩

theorem witness_ReservedRequestDropped :
    (0xFFFF_FFFF_FFFF_FFFF_FFFF_0#84).setWidth 4 = 0#4 := by decide

theorem witness_UnconfiguredRequestDropped :
    opcodeOf (.setWindow 0 0 1 1) = some 0x2 ∧ opcodeOf (.drawStringGfx 0 0 0 []) = some 0xF ∧
    2 ≤ (0x2#4).toNat ∧ fontReady defaultParams (.drawStringGfx 0 0 0 []) = true ∧
    State.reset.enc.dev = none ∧ opcodeOf (.init 0 0 0) = some 0x1 ∧ (0x1#4).toNat < 2 ∧
    ∃ t, exec (.init 0 0 0) State.reset = .next t := ⟨by decide, by decide, by decide, by decide, rfl, by decide,
      by decide, _, rfl⟩

theorem witness_InitRunsTheSequence : (0 : Int) ≤ 7 ∧ (7 : Int) ≤ 7 ∧ (1 : Int) ≤ 32767 ∧
    (32767 : Int) ≤ State.reset.par.maxDim ∧ (1 : Int) ≤ 1 ∧ (1 : Int) ≤ State.reset.par.maxDim := by decide

theorem witness_RangeErrorsDropped :
    (State.reset.par.maxDim : Int) < 32768 ∧ (7 : Int) < 8 ∧ afterInit.enc.dev = some device176 ∧
    device176.width ≤ 176 ∧ device176.height ≤ 220 ∧ (0 : Int) ≤ 0 ∧
    min ((-5 : Int) + 5 - 1) (device176.width - 1) < max (-5) 0 ∧ (0 : Int) < 1 ∧
    device176.width - 1 < 174 + 2 ∧ device176.height - 1 < 218 + 2 := by decide

theorem witness_SetWindowSendsNormalisedWindow : afterInit.enc.dev = some device176 := rfl

theorem witness_NormalisedWindowIsOnDevice : 1 ≤ device176.width ∧ 1 ≤ device176.height ∧
    (175 : Int) ≤ device176.width - 1 ∧ (219 : Int) ≤ device176.height - 1 := by decide

theorem witness_SetRotationWritesEntryWord : afterInit.par.wf = true ∧ afterInit.enc.dev = some device176 ∧
    BitVec.ofInt 3 7 ≠ device176.rotation ∧
    (3 : BitVec 3).getLsbD 2 = device176.rotation.getLsbD 2 := by decide

theorem witness_SetColorOrderWritesEntryWord : afterInit.par.wf = true ∧
    afterInit.enc.dev = some device176 ∧ ColorOrder.rgb ≠ device176.colorOrder := by decide

theorem witness_ConfigurationRequestsIdempotent : afterInit.enc.dev = some device176 ∧
    BitVec.ofInt 3 0 = device176.rotation ∧ (false = true ↔ device176.colorOrder = .rgb) ∧
    (8 : Int) > 7 := by decide

theorem witness_WriteData16SendsOneWord : afterInit.enc.dev = some device176 := rfl

theorem witness_CursorFillsTheWindowRowMajor : (2 : Int) ≤ 4 ∧ (3 : Int) ≤ 9 ∧
    20 < ((4 : Int) - 2 + 1).toNat * ((9 : Int) - 3 + 1).toNat ∧
    21 = ((4 : Int) - 2 + 1).toNat * ((9 : Int) - 3 + 1).toNat := by decide

theorem witness_RequestsKeepWindowOnDevice :
    opcodeOf (.setRotation 3) = some 0x3 ∧ afterInit.par.wf = true ∧
    (∀ d, afterInit.enc.dev = some d → d.OnDevice) ∧
    (∀ d rot, Instr.setRotation 3 = .setRotation rot → afterInit.enc.dev = some d →
      (BitVec.ofInt 3 rot).getLsbD 2 = d.rotation.getLsbD 2) ∧
    ∃ t, exec (.setRotation 3) afterInit = .next t := by
  refine ⟨by decide, by decide, ?_, ?_, _, rfl⟩
  · rintro d ⟨⟩; unfold DeviceState.OnDevice; decide
  · rintro d rot ⟨⟩ ⟨⟩; decide

theorem witness_DrawPixelSendsOneCell : afterInit.enc.dev = some device176 ∧ (0 : Int) ≤ 175 ∧
    (175 : Int) < device176.width ∧ (219 : Int) < device176.height := by decide

theorem witness_FillRectSendsOneBurst : afterInit.enc.dev = some device176 ∧ (0 : Int) < 4 ∧
    max (-2 : Int) 0 ≤ min (-2 + 4 - 1) (device176.width - 1) ∧
    max (219 : Int) 0 ≤ min (219 + 4 - 1) (device176.height - 1) := by decide

theorem witness_ShapesPlotTheirCells : afterInit.enc.dev = some device176 ∧ (0 : Int) < 1 ∧
    (1 : Int) ≤ 2 ∧ (0 : Int) ≤ 2 - 2 ∧ (173 : Int) + 2 ≤ device176.width - 1 ∧
    (217 : Int) + 2 ≤ device176.height - 1 := by decide

theorem witness_LineFollowsTheErrorTerm : (0 : Int) ≤ 5 ∧ |(2 : Int) - 0| ≤ 5 - 0 ∧
    ((5 : Nat) : Int) ≤ 5 - 0 ∧ |(2 : Int) - 0| < 5 - 0 := by decide

theorem witness_RectangleOutlineIsItsBorder : (0 : Int) < 1 := by decide

theorem witness_CircleIterationsFollowTheMidpoint : (1 : Int) ≤ 3 ∧
    (circleIterations 3)[0]? = some ⟨1, 3⟩ ∧ (circleIterations 3)[1]? = some ⟨2, 2⟩ ∧
    (circleIterations 3).getLast? = some ⟨2, 2⟩ := by decide

theorem witness_AcceptedCirclesNeverClip : device176.circleAccept 2 2 2 = true ∧
    device176.circleAccept 173 217 2 = true := by decide

theorem witness_CircleHasEightSymmetries : (⟨10 + 1, 10 + 3⟩ : Point) ∈ circleCells 10 10 3 := by decide

theorem witness_FilledCircleIsRowHullOfOutline : (1 : Int) ≤ 1 := by decide

theorem witness_TextRequestsPlotAndMoveThePen : afterInit.enc.dev = some device176 ∧
    afterInit.par.fixedFont.wf = true ∧ (1 : Int) ≤ 1 ∧ (0 : Int) < 1 ∧
    afterInit.par.gfxFont.wf = true := by decide

theorem witness_TextNeedsWellFormedFont :
    [0x78#8].length ≠ ((0x42#8).toNat - (0x41#8).toNat + 1) * 3 ∧
    (∃ g ∈ exampleGfxFont.glyphs, ([] : List Byte).length < g.bitmapOffset + (g.width * g.height + 7) / 8) := by
  decide

theorem witness_FixedGlyphCells : exampleFixedFont.wf = true ∧
    exampleFixedFont.firstChar.toNat ≤ (0x42#8).toNat ∧ (0x42#8).toNat ≤ exampleFixedFont.lastChar.toNat ∧
    exampleFixedFont.lastChar.toNat < (0x43#8).toNat ∧
    (⟨10, 21⟩ : Point) ∈ (fixedChar exampleFixedFont 1 ⟨10, 20⟩ 0x41).1 := by decide

theorem witness_GfxGlyphCells : exampleGfxFont.wf = true ∧
    exampleGfxFont.first.toNat ≤ (0x21#8).toNat ∧ (0x21#8).toNat ≤ exampleGfxFont.last.toNat ∧
    (0x20#8).toNat < exampleGfxFont.first.toNat ∧
    (⟨11, 19⟩ : Point) ∈ (gfxChar exampleGfxFont ⟨10, 20⟩ 0x21).1 := by decide

theorem witness_StringsMoveThePen : (0x21 : Byte) ≠ 0x0A ∧ 0x0A ∉ [(0x21 : Byte), 0x20] := by decide

theorem witness_CmdFrameLatchesRegister : afterInit.dec.err = none ∧ afterInit.par.mapped 0x22 = true ∧
    afterInit.par.mapped 0x99 = false ∧
    (mirroring (afterInit.dec.raise .modeUnset).1).dec.err.isSome = true := by decide

theorem witness_DataFrameReachesLatchedRegister : afterInit.par.wf = true ∧
    (mirroring (afterInit.dec.raise .modeUnset).1).dec.err.isSome = true ∧
    State.reset.dec.err = none ∧ State.reset.dec.latched = none ∧
    (mirroring { afterInit.dec with latched := some 0x37 }).dec.latched = some afterInit.par.regHS ∧
    (mirroring { afterInit.dec with latched := some 0x36 }).dec.latched = some afterInit.par.regHE ∧
    (mirroring { afterInit.dec with latched := some 0x39 }).dec.latched = some afterInit.par.regVS ∧
    (mirroring { afterInit.dec with latched := some 0x38 }).dec.latched = some afterInit.par.regVE ∧
    (mirroring { afterInit.dec with latched := some 0x20 }).dec.latched = some afterInit.par.regAX ∧
    (mirroring { afterInit.dec with latched := some 0x21 }).dec.latched = some afterInit.par.regAY ∧
    afterInit.par.unrecorded 0x03 = false ∧
    (mirroring { afterInit.dec with latched := some 0x03, partialByte := some 1 }).dec.partialByte =
      some 1 := by decide

theorem witness_DataFrameWritesOnePixel : afterInit.dec.err = none ∧ afterInit.dec.partialByte = none ∧
    afterInit.dec.latched = some afterInit.par.regGram ∧
    (⟨0, 0, 175, 219⟩ : Window Word16).x2.toNat < 176 ∧ afterInit.dec.cx < afterInit.par.fbW ∧
    (mirroring { afterInit.dec with cx := 176 }).dec.win.x2.toNat < 176 ∧
    (mirroring { afterInit.dec with cx := 200, win := ⟨0, 0, 300, 219⟩ }).dec.cx ≤ 300 ∧
    ¬ 200 < afterInit.par.fbW ∧
    (mirroring { afterInit.dec with partialByte := some 0xF8, phase := .dataAccumulating }).dec.latched =
      some afterInit.par.regGram ∧
    (mirroring { afterInit.dec with partialByte := some 0xF8, phase := .dataAccumulating }).dec.completed
      0x0012 = 0xF800 := by decide

theorem witness_SelectLinesDelayAndReset : afterInit.dec.err = none := rfl

theorem witness_StrobeChecksInOrder : (selected none none).err = none ∧ afterInit.dec.cs = false ∧
    (selected none none).cs = true ∧ (selected none none).rs = none ∧
    (selected (some .cmd) none).rs = some .cmd ∧ [0x22#8, 0#8].length ≠ 1 ∧ ([] : List Byte).length ≠ 1 ∧
    defaultParams.mapped 0x99 = false ∧ defaultParams.mapped 0x22 = true ∧
    (selected (some .data) none).latched = none := by decide

theorem witness_DataStrobesPairByArrival : (selected (some .data) (some 0x03)).err = none ∧
    (selected (some .data) (some 0x03)).latched.isSome = true ∧
    ((selected (some .data) (some 0x03)).pin defaultParams (.writeBytes [1, 2, 3])).2 = none ∧
    (({ selected (some .data) (some 0x22) with cx := 300 } : Dec).pin defaultParams
      (.writeBytes [1, 2, 3])).2 = some (.cursorOutsideWindow 300 0) := by decide

theorem witness_FaultedDecoderIgnoresInputs :
    (mirroring (afterInit.dec.raise .modeUnset).1).dec.err.isSome = true ∧
    (∀ rest, (mirroring (afterInit.dec.raise .modeUnset).1).inputs ≠ .createDecoder :: rest) ∧
    (∃ t, step (mirroring (afterInit.dec.raise .modeUnset).1) = .next t) ∧
    ∃ t, step { mirroring (afterInit.dec.raise .modeUnset).1 with inputs := [.createDecoder] } = .next t := by
  refine ⟨by decide, fun rest h => ?_, ⟨_, rfl⟩, _, rfl⟩
  cases h

theorem witness_FaultEntryRecordsAndSignals : (selected none none).err = none ∧
    ((selected none none).pin defaultParams (.writeBytes [])).2 = some .modeUnset ∧
    (selected none none).rs ≠ some .data ∧
    ((selected none none).pin defaultParams (.delay 1)).2 = none := by decide

theorem witness_FlushIsDirtyGated : (Dec.created defaultParams).dirty = false ∧
    ({ Dec.created defaultParams with dirty := true } : Dec).err = none ∧
    ((Dec.created defaultParams).raise .modeUnset).1.err.isSome = true := by decide

theorem witness_LoggingRequestsChangeNothingElse : opcodeOf (.drawPixel 176 0 3) = some 0x6 ∧
    ∃ t, exec (.drawPixel 176 0 3) afterInit = .next t := ⟨by decide, _, rfl⟩

theorem witness_UnitsMeetOnTheWireAlone : opcodeOf (.cmd 0x22) = none ∧
    (∃ t, exec (.cmd 0x22) afterInit = .next t) ∧ ∃ t, exec (.setWindow 0 0 1 1) afterInit = .next t :=
  ⟨rfl, ⟨_, rfl⟩, _, rfl⟩

theorem witness_StreamsOnlyGrow : (∃ t, step (asked [.flush]) = .next t) ∧
    ∀ rest, (asked [.flush]).inputs ≠ .createDecoder :: rest := by
  refine ⟨⟨_, rfl⟩, fun rest h => ?_⟩
  cases h

/-- A state of the invariant that is not the reset state, and its step. -/
theorem witness_StepKeepsTheInvariant :
    ({ State.reset with inputs := [.pin (.selectChip true)] } : State).Inv ∧
    ∃ t, step { State.reset with inputs := [.pin (.selectChip true)] } = .next t := by
  refine ⟨⟨⟨by simp [State.reset, State.resetWith, Front.powerOn], by
    simp [State.reset, State.resetWith, Front.powerOn], ?_, by
    simp [State.reset, State.resetWith, Front.powerOn]⟩, Dec.created_ok _, by
    simp [State.ReadyOk, State.reset, State.resetWith, Front.powerOn]⟩, _, rfl⟩
  intro before w after h
  simp [State.reset, State.resetWith, Front.powerOn] at h

/-- `afterInit` is a state of agreement whose framebuffer covers the device. -/
theorem afterInit_agree : afterInit.Agree ∧ afterInit.ExtentsFit ∧ afterInit.WindowFits := by
  refine ⟨⟨rfl, ?_⟩, ?_, ?_⟩
  all_goals
    rintro d ⟨⟩
    decide

/-- Every clause of `State.Covers`: a drawing request, a data word, and, where the extents do not fit, a
request that emits no GRAM word. -/
theorem witness_RequestsKeepAgreement :
    afterInit.Agree ∧ afterInit.par.wf = true ∧ afterInit.wire = [] ∧
    afterInit.Covers (.drawPixel 0 0 0) ∧ afterInit.Covers (.writeData16 0) ∧
    ({ afterInit with par := { defaultParams with fbW := 100 } } : State).Covers (.setRotation 4) ∧
    (Instr.setRotation 4).wf = true ∧ (∃ t, exec (.setRotation 4) afterInit = .next t) ∧
    (Instr.init 32767 1 7).wf = true ∧ State.reset.par.wf = true ∧ State.reset.wire = [] ∧
    State.reset.dec.err = none := by
  obtain ⟨hagree, hextents, hwindow⟩ := afterInit_agree
  exact ⟨hagree, by decide, rfl, ⟨fun _ => hextents, fun _ => hwindow⟩, ⟨fun _ => hextents, fun _ => hwindow⟩,
    ⟨by simp [paintColor], by simp⟩, by decide, ⟨_, rfl⟩, by decide, by decide, rfl, rfl⟩

theorem witness_DrawingPaintsExactlyItsCells :
    paintColor (.fillRect 170 215 10 10 0x07E0) = some 0x07E0 ∧
    (Instr.fillRect 170 215 10 10 0x07E0).wf = true ∧ afterInit.par.wf = true ∧ afterInit.wire = [] ∧
    afterInit.Agree ∧ afterInit.ExtentsFit ∧ afterInit.enc.dev = some device176 ∧
    (∃ t, exec (.fillRect 170 215 10 10 0x07E0) afterInit = .next t) ∧
    paints afterInit.par device176 (.fillRect 170 215 10 10 0x07E0) ⟨175, 219⟩ ∧
    ¬ paints afterInit.par device176 (.fillRect 170 215 10 10 0x07E0) ⟨169, 219⟩ := by
  refine ⟨by decide, by decide, by decide, rfl, afterInit_agree.1, afterInit_agree.2.1, rfl, ⟨_, rfl⟩, ?_, ?_⟩ <;>
    simp [paints, asksFor, DeviceState.contains, device176]

theorem witness_WordStreamFillsTheWindow : (Instr.setWindow 0 0 1 1).wf = true ∧
    afterInit.par.wf = true ∧ afterInit.wire = [] ∧ afterInit.Agree ∧ afterInit.ExtentsFit ∧
    afterInit.enc.dev = some device176 ∧
    [0xF800#16, 0xFFFF, 0x0000, 0x07E0].length =
      (((device176.normWindow 0 0 1 1).x2 - (device176.normWindow 0 0 1 1).x1 + 1).toNat *
        ((device176.normWindow 0 0 1 1).y2 - (device176.normWindow 0 0 1 1).y1 + 1).toNat) :=
  ⟨by decide, by decide, rfl, afterInit_agree.1, afterInit_agree.2.1, rfl, by decide⟩

end Sys2Proof.Tests
end

section
/-! SUPPORT. What a request can do to the machine, said once: nothing, one diagnostic record, or a list of
events sent with the DeviceState moved along, and for a text request the pen besides. -/

namespace Sys2Proof.Machine

/-! ## Emissions before a sent list

The last DeviceState and latched register of a sent list are the ones that count, so that emissions before
it only lengthen the list. -/

theorem State.emit_sent (ev : Event) (s : State) (evs : List Event) (d : DeviceState) (r : RegAddr) :
    (s.emit ev).sent evs d r = s.sent (ev :: evs) d r := by
  simp [State.emit, State.sent]

theorem State.writeReg_sent (q : RegAddr) (v : Word16) (s : State) (evs : List Event) (d : DeviceState)
    (r : RegAddr) :
    (s.writeReg q v).sent evs d r = s.sent (.cmd q :: .data v :: evs) d r := by
  simp [State.writeReg_eq, State.sent]

theorem State.writeReg_setDevice (q : RegAddr) (v : Word16) (s : State) (d : DeviceState) :
    (s.writeReg q v).setDevice d = s.sent [.cmd q, .data v] d q := by
  simp [State.writeReg_eq, State.setDevice, State.sent]

/-- A register write on a device that has just been written: the cursor moves only for REG_GRAM
(40_transport R142). -/
theorem State.setDevice_writeReg (q : RegAddr) (v : Word16) (s : State) (d : DeviceState) :
    (s.setDevice d).writeReg q v =
      s.sent [.cmd q, .data v] (if q = s.par.regGram then d.advanceCursor else d) q := by
  split_ifs with h <;> simp [State.writeReg_eq, State.setDevice, State.sent, h]

/-- INIT_SEQUENCE before a sent list (41_encoder_config R171, R172). -/
theorem State.initSteps_sent (steps : List InitStep) (s : State) (evs : List Event) (d : DeviceState)
    (r : RegAddr) :
    (s.initSteps steps).sent evs d r = s.sent (initSequenceEvents steps ++ evs) d r := by
  induction steps generalizing s with
  | nil => rfl
  | cons step steps ih =>
    rw [State.initSteps, List.foldl_cons]
    change ((s.initStep step).initSteps steps).sent evs d r = _
    rw [ih]
    cases step with
    | writeReg q v => exact State.writeReg_sent q v s _ d r
    | delay ms => exact State.emit_sent (.delay ms) s _ d r

/-- The words WRITE_DATA16 sends: GRAM write mode is opened again when it is not latched
(41_encoder_config R193). -/
def reopenEvents (p : Params) (latched : Option RegAddr) (w : Word16) : List Event :=
  if latched = some p.regGram then [.data w] else [.cmd p.regGram, .data w]

theorem State.reopenGram_emitData {s : State} {d : DeviceState} (h : s.enc.dev = some d) (w : Word16) :
    s.reopenGram.emitData w = s.sent (reopenEvents s.par s.enc.latched w) d.advanceCursor s.par.regGram := by
  unfold State.reopenGram reopenEvents
  split_ifs with hl <;> simp [State.emitData_eq, State.emitCmd, State.emit, State.sent, h, hl]

/-- The events of an accepted INIT (41_encoder_config R171). -/
def initEvents (p : Params) (w h rot : Int) : List Event :=
  .reset :: (initSequenceEvents p.initSequence ++
    [.cmd p.regEntry, .data (p.entryWord (BitVec.ofInt 3 rot) p.colorOrderReset)]) ++
    windowEvents p ⟨0, 0, w - 1, h - 1⟩

/-- Everything an accepted INIT does (41_encoder_config R171, R173). -/
theorem execInit_accepted {s : State} {w h rot : Int} (hin : initInRange s.par w h rot = true) :
    execInit w h rot s =
      .next (s.sent (initEvents s.par w h rot) (createdDevice s.par w h rot) s.par.regGram) := by
  rw [execInit, if_pos hin, State.writeReg_setDevice, State.initSteps_sent, State.emit_sent,
    State.setWindowCore_eq (State.sent_dev ..), State.sent_sent]
  rfl

/-! ## The grammar of what is sent -/

/-- `StreamRun p l evs l'`: the events name mapped registers only and give a receiver with `l` latched no
data word without a command; they leave `l'` latched (30_encoding R112, R124, 44_decoder R255, R270). -/
inductive StreamRun (p : Params) : Option RegAddr → List Event → Option RegAddr → Prop where
  | nil (l) : StreamRun p l [] l
  | cmd {l l' r evs} (hr : p.mapped r = true) (h : StreamRun p (some r) evs l') :
      StreamRun p l (.cmd r :: evs) l'
  | data {r l' w evs} (h : StreamRun p (some r) evs l') : StreamRun p (some r) (.data w :: evs) l'
  | delay {l l' ms evs} (h : StreamRun p l evs l') : StreamRun p l (.delay ms :: evs) l'
  | reset {l l' evs} (h : StreamRun p none evs l') : StreamRun p l (.reset :: evs) l'

theorem StreamRun.append {p : Params} {l m n : Option RegAddr} {a b : List Event} (ha : StreamRun p l a m)
    (hb : StreamRun p m b n) : StreamRun p l (a ++ b) n := by
  induction ha with
  | nil => exact hb
  | cmd hr _ ih => exact .cmd hr (ih hb)
  | data _ ih => exact .data (ih hb)
  | delay _ ih => exact .delay (ih hb)
  | reset _ ih => exact .reset (ih hb)

/-- One register written (40_transport R144). -/
theorem StreamRun.write {p : Params} {l : Option RegAddr} {r : RegAddr} (v : Word16)
    (hr : p.mapped r = true) : StreamRun p l [.cmd r, .data v] (some r) := .cmd hr (.data (.nil _))

theorem Params.mapped_of_mem_roles {p : Params} {r : RegAddr} (h : r ∈ p.roles) : p.mapped r = true := by
  simp [Params.mapped, Params.mappedList, h]

theorem Params.mapped_regGram (p : Params) : p.mapped p.regGram = true :=
  Params.mapped_of_mem_roles (by simp [Params.roles])

theorem Params.mapped_regEntry (p : Params) : p.mapped p.regEntry = true :=
  Params.mapped_of_mem_roles (by simp [Params.roles])

/-- The 13 events of a window, whatever is latched before (41_encoder_config R182). -/
theorem StreamRun.window (p : Params) (l : Option RegAddr) (w : Window Int) :
    StreamRun p l (windowEvents p w) (some p.regGram) := by
  have write : ∀ {l r} (v : Word16), r ∈ p.roles → StreamRun p l [.cmd r, .data v] (some r) :=
    fun v hr => .write v (Params.mapped_of_mem_roles hr)
  exact (write _ (by simp [Params.roles])).append <| (write _ (by simp [Params.roles])).append <|
    (write _ (by simp [Params.roles])).append <| (write _ (by simp [Params.roles])).append <|
    (write _ (by simp [Params.roles])).append <| (write _ (by simp [Params.roles])).append <|
    .cmd (Params.mapped_regGram p) (.nil _)

/-- A burst of data words stays under its command (42_raster_primitives R206). -/
theorem StreamRun.burst (p : Params) (r : RegAddr) (w : Word16) (n : Nat) :
    StreamRun p (some r) (List.replicate n (.data w)) (some r) := by
  induction n with
  | zero => exact .nil _
  | succ n ih => exact .data ih

/-- The plots of one or more cells (42_raster_primitives R200). -/
theorem StreamRun.pixels (p : Params) (l : Option RegAddr) (c : Color) (pt : Point) (rest : List Point) :
    StreamRun p l ((pt :: rest).flatMap (pixelEvents p c)) (some p.regGram) := by
  have one : ∀ l q, StreamRun p l (pixelEvents p c q) (some p.regGram) := fun l q =>
    (StreamRun.window p l (cellWindow q)).append (.data (.nil _))
  induction rest generalizing l pt with
  | nil => simpa using one l pt
  | cons q rest ih => exact (one l pt).append (ih _ q)

theorem mem_initRegisters_iff {r : RegAddr} {steps : List InitStep} :
    r ∈ initRegisters steps ↔ ∃ v, .writeReg r v ∈ steps := by
  induction steps with
  | nil => simp [initRegisters]
  | cons step steps ih =>
    cases step with
    | writeReg q v => simp [initRegisters, ih, exists_or]
    | delay ms => simp [initRegisters, ih]

/-- INIT_SEQUENCE keeps to the grammar and writes mapped registers (41_encoder_config R172). -/
theorem StreamRun.initSequence {p : Params} {steps : List InitStep}
    (h : ∀ r ∈ initRegisters steps, p.mapped r = true) (l : Option RegAddr) :
    ∃ l', StreamRun p l (initSequenceEvents steps) l' := by
  induction steps generalizing l with
  | nil => exact ⟨l, .nil l⟩
  | cons step steps ih =>
    cases step with
    | writeReg r v =>
      simp only [initRegisters, List.forall_mem_cons] at h
      obtain ⟨l', hl'⟩ := ih h.2 (some r)
      exact ⟨l', .cmd h.1 (.data hl')⟩
    | delay ms =>
      obtain ⟨l', hl'⟩ := ih h l
      exact ⟨l', .delay hl'⟩

/-- The events of an accepted INIT, whatever is latched before. -/
theorem StreamRun.init (p : Params) (l : Option RegAddr) (w h rot : Int) :
    StreamRun p l (initEvents p w h rot) (some p.regGram) := by
  obtain ⟨l', hseq⟩ := StreamRun.initSequence (p := p) (steps := p.initSequence)
    (fun r hr => by simp [Params.mapped, Params.mappedList, hr]) none
  exact (StreamRun.reset (hseq.append (.write _ (Params.mapped_regEntry p)))).append (.window p _ _)

/-- The events of WRITE_DATA16 after what it finds latched (41_encoder_config R193). -/
theorem StreamRun.reopen (p : Params) (l : Option RegAddr) (w : Word16) :
    StreamRun p l (reopenEvents p l w) (some p.regGram) := by
  unfold reopenEvents
  split_ifs with h
  · subst h
    exact .data (.nil _)
  · exact .write w (Params.mapped_regGram p)

/-! ## How the DeviceState moves -/

/-- The window lies on the device (10_state R41). -/
def DeviceState.Holds (d : DeviceState) (w : Window Int) : Prop :=
  0 ≤ w.x1 ∧ w.x1 ≤ w.x2 ∧ w.x2 ≤ d.width - 1 ∧ 0 ≤ w.y1 ∧ w.y1 ≤ w.y2 ∧ w.y2 ≤ d.height - 1

/-- `DeviceMove p i before d`: what request `i` can make of the DeviceState. An accepted INIT creates it; a
window is set and its cursor advanced; an axis, an order or a cursor is changed. SET_WINDOW's window lies on
the device when that has a cell at all. -/
inductive DeviceMove (p : Params) (i : Instr) : Option DeviceState → DeviceState → Prop where
  | created {before w h rot} (hin : initInRange p w h rot = true) :
      DeviceMove p i before (createdDevice p w h rot)
  | windowed {d w} (n : Nat) (hw : 1 ≤ d.width → 1 ≤ d.height → d.Holds w) :
      DeviceMove p i (some d) ((d.setWindow w).advanceTimes n)
  | rotated {d rot} (hi : i = .setRotation rot) :
      DeviceMove p i (some d) (d.rotate (BitVec.ofInt 3 rot))
  | reordered {d} (order : ColorOrder) : DeviceMove p i (some d) { d with colorOrder := order }
  | advanced {d} : DeviceMove p i (some d) d.advanceCursor

/-- A normalised window lies on a device that has a cell (41_encoder_config R181). -/
theorem DeviceState.holds_normWindow {d : DeviceState} (x1 y1 x2 y2 : Int) (hw : 1 ≤ d.width)
    (hh : 1 ≤ d.height) : d.Holds (d.normWindow x1 y1 x2 y2) := by
  simp only [DeviceState.Holds, DeviceState.normWindow, clamp]
  omega

/-- The window of a cell on the device (42_raster_primitives R200). -/
theorem DeviceState.holds_cellWindow {d : DeviceState} {pt : Point} (h : d.contains pt.x pt.y = true) :
    d.Holds (cellWindow pt) := by
  simp only [DeviceState.contains, decide_eq_true_eq] at h
  simp only [DeviceState.Holds, cellWindow]
  omega

/-- A clipped rectangle lies on the device and has a cell (42_raster_primitives R205). -/
theorem DeviceState.holds_clipRect {d : DeviceState} {x y w h : Int} {c : Window Int}
    (hc : d.clipRect x y w h = some c) : d.Holds c := by
  simp only [DeviceState.clipRect] at hc
  split_ifs at hc with _ hin
  obtain rfl := Option.some.inj hc
  simp only [DeviceState.Holds]
  omega

/-! ## What a request can do -/

/-- Everything a request can do to the machine. The grammar of what it sends is stated after any register a
receiver has latched, which on a configured device is `E.latched`. -/
inductive RequestEffect (i : Instr) (s : State) : State → Prop where
  | unchanged : RequestEffect i s s
  | logged (code : BitVec 8) (op : BitVec 4) : RequestEffect i s (s.logged code op)
  | sent {evs d r} (hne : evs ≠ [])
      (hrun : ∀ l, (s.enc.dev.isSome = true → l = s.enc.latched) → StreamRun s.par l evs (some r))
      (hmove : s.par.wf = true → DeviceMove s.par i s.enc.dev d) : RequestEffect i s (s.sent evs d r)
  | penned {t} (pen : Point) (htext : ∃ op, opcodeOf i = some op ∧ 0xC ≤ op.toNat)
      (h : RequestEffect i s t) : RequestEffect i s (t.withPen pen)

/-- The prologue: without a device the request logs one record, so that its body decides
(41_encoder_config R170). -/
theorem RequestEffect.withDevice {i : Instr} {s : State} {op : BitVec 4} {body : DeviceState → State}
    (h : ∀ d, s.enc.dev = some d → RequestEffect i s (body d)) :
    RequestEffect i s (s.withDevice op body) := by
  cases hd : s.enc.dev with
  | none => exact State.withDevice_none op body hd ▸ .logged _ _
  | some d => exact State.withDevice_some op body hd ▸ h d hd

/-- Plotting cells moves the window to the last of them on the device (42_raster_primitives R200). -/
theorem RequestEffect.plotCells {i : Instr} {s : State} {d : DeviceState} (hd : s.enc.dev = some d)
    (cells : List Point) (c : Color) : RequestEffect i s (s.plotCells cells c) := by
  rw [State.plotCells_eq cells c hd, State.plotted]
  generalize hshown : cells.filter (fun pt => d.contains pt.x pt.y) = shown
  cases hlast : shown.getLast? with
  | none => exact .unchanged
  | some pt =>
    have hpt : d.contains pt.x pt.y = true := by
      have hmem := List.mem_of_getLast? hlast
      rw [← hshown] at hmem
      exact (List.mem_filter.mp hmem).2
    obtain ⟨q, rest, rfl⟩ := List.exists_cons_of_ne_nil (List.ne_nil_of_mem (List.mem_of_getLast? hlast))
    refine .sent (by simp [pixelEvents, windowEvents]) (fun l _ => .pixels s.par l c q rest) fun _ => ?_
    exact hd ▸ .windowed 0 fun _ _ => DeviceState.holds_cellWindow hpt

/-- A drawn text plots its cells and writes the pen (45_text R306). -/
theorem RequestEffect.drawText {i : Instr} {s : State} {d : DeviceState} (hd : s.enc.dev = some d)
    (htext : ∃ op, opcodeOf i = some op ∧ 0xC ≤ op.toNat) (drawn : List Point × Point) (c : Color) :
    RequestEffect i s (s.drawText drawn c) :=
  .penned drawn.2 htext (.plotCells hd drawn.1 c)

/-- The entry register is not the GRAM port (00_scope R8). -/
theorem Params.wf_regEntry_ne_regGram {p : Params} (h : p.wf = true) : p.regEntry ≠ p.regGram := by
  have hn := Params.wf_roles h
  simp only [Params.roles, List.nodup_cons, List.mem_cons, not_or] at hn
  tauto

/-- The entry word rewritten for a changed device (41_encoder_config R185, R190). -/
theorem RequestEffect.writeEntry {i : Instr} {s : State} {d : DeviceState} (v : Word16)
    (hmove : DeviceMove s.par i s.enc.dev d) :
    RequestEffect i s ((s.setDevice d).writeReg s.par.regEntry v) := by
  rw [State.setDevice_writeReg]
  refine .sent (by simp) (fun l _ => .write v (Params.mapped_regEntry s.par)) fun hwf => ?_
  rwa [if_neg (Params.wf_regEntry_ne_regGram hwf)]

/-! ## The effect of each request -/

theorem execInit_effect {w h rot : Int} {s t : State} (hx : execInit w h rot s = .next t) :
    RequestEffect (.init w h rot) s t := by
  by_cases hin : initInRange s.par w h rot = true
  · rw [execInit_accepted hin] at hx
    obtain rfl := Host.Outcome.next.inj hx
    exact .sent (by simp [initEvents]) (fun l _ => .init s.par l w h rot) fun _ => .created hin
  · rw [execInit, if_neg hin] at hx
    obtain rfl := Host.Outcome.next.inj hx
    exact .logged _ _

theorem execSetWindow_effect {x1 y1 x2 y2 : Int} {s t : State} (hx : execSetWindow x1 y1 x2 y2 s = .next t) :
    RequestEffect (.setWindow x1 y1 x2 y2) s t := by
  obtain rfl := Host.Outcome.next.inj hx
  refine .withDevice fun d hd => ?_
  rw [State.setWindowCore_eq hd]
  refine .sent (by simp [windowEvents]) (fun l _ => .window s.par l _) fun _ => ?_
  exact hd ▸ .windowed 0 (DeviceState.holds_normWindow x1 y1 x2 y2)

theorem execSetRotation_effect {rot : Int} {s t : State} (hx : execSetRotation rot s = .next t) :
    RequestEffect (.setRotation rot) s t := by
  obtain rfl := Host.Outcome.next.inj hx
  refine .withDevice fun d hd => ?_
  split_ifs
  · exact .logged _ _
  · exact .unchanged
  · exact .writeEntry _ (hd ▸ .rotated rfl)

theorem execSetColorOrder_effect {isRgb : Bool} {s t : State} (hx : execSetColorOrder isRgb s = .next t) :
    RequestEffect (.setColorOrder isRgb) s t := by
  obtain rfl := Host.Outcome.next.inj hx
  refine .withDevice fun d hd => ?_
  split_ifs
  · exact .unchanged
  · exact .writeEntry _ (hd ▸ .reordered _)

theorem execWriteData16_effect {w : Word16} {s t : State} (hx : execWriteData16 w s = .next t) :
    RequestEffect (.writeData16 w) s t := by
  obtain rfl := Host.Outcome.next.inj hx
  refine .withDevice fun d hd => ?_
  rw [State.reopenGram_emitData hd]
  refine .sent (by unfold reopenEvents; split_ifs <;> simp) (fun l hl => ?_) fun _ => hd ▸ .advanced
  exact hl (by simp [hd]) ▸ .reopen s.par l w

theorem execDrawPixel_effect {x y : Int} {c : Color} {s t : State} (hx : execDrawPixel x y c s = .next t) :
    RequestEffect (.drawPixel x y c) s t := by
  obtain rfl := Host.Outcome.next.inj hx
  refine .withDevice fun d hd => ?_
  split_ifs
  · exact .plotCells hd [⟨x, y⟩] c
  · exact .logged _ _

theorem execFillRect_effect {x y w h : Int} {c : Color} {s t : State}
    (hx : execFillRect x y w h c s = .next t) : RequestEffect (.fillRect x y w h c) s t := by
  obtain rfl := Host.Outcome.next.inj hx
  refine .withDevice fun d hd => ?_
  cases hclip : d.clipRect x y w h with
  | none => exact .logged _ _
  | some win =>
    simp only
    rw [State.setWindowCore_eq hd, State.sent_emitDataTimes]
    refine .sent (by simp [windowEvents])
      (fun l _ => (StreamRun.window s.par l win).append (.burst s.par _ c _)) fun _ => ?_
    exact hd ▸ .windowed _ fun _ _ => DeviceState.holds_clipRect hclip

theorem execDrawLine_effect {x0 y0 x1 y1 : Int} {c : Color} {s t : State}
    (hx : execDrawLine x0 y0 x1 y1 c s = .next t) : RequestEffect (.drawLine x0 y0 x1 y1 c) s t := by
  obtain rfl := Host.Outcome.next.inj hx
  exact .withDevice fun d hd => .plotCells hd _ c

theorem execDrawRect_effect {x y w h : Int} {c : Color} {s t : State}
    (hx : execDrawRect x y w h c s = .next t) : RequestEffect (.drawRect x y w h c) s t := by
  obtain rfl := Host.Outcome.next.inj hx
  refine .withDevice fun d hd => ?_
  split_ifs
  · exact .logged _ _
  · exact .plotCells hd _ c

theorem execDrawCircle_effect {x y r : Int} {c : Color} {s t : State}
    (hx : execDrawCircle x y r c s = .next t) : RequestEffect (.drawCircle x y r c) s t := by
  obtain rfl := Host.Outcome.next.inj hx
  refine .withDevice fun d hd => ?_
  split_ifs
  · exact .plotCells hd _ c
  · exact .logged _ _

theorem execFillCircle_effect {x y r : Int} {c : Color} {s t : State}
    (hx : execFillCircle x y r c s = .next t) : RequestEffect (.fillCircle x y r c) s t := by
  obtain rfl := Host.Outcome.next.inj hx
  refine .withDevice fun d hd => ?_
  split_ifs
  · exact .plotCells hd _ c
  · exact .logged _ _

theorem execDrawCharFixed_effect {x y : Int} {ch : Byte} {c : Color} {size : Int} {s t : State}
    (hx : execDrawCharFixed x y ch c size s = .next t) :
    RequestEffect (.drawCharFixed x y ch c size) s t := by
  unfold execDrawCharFixed at hx
  split at hx
  · obtain rfl := Host.Outcome.next.inj hx
    refine .withDevice fun d hd => ?_
    split_ifs
    · exact .logged _ _
    · exact .drawText hd ⟨0xC, rfl, by decide⟩ _ c
  · cases hx

theorem execDrawStringFixed_effect {x y : Int} {c : Color} {size : Int} {payload : List Byte} {s t : State}
    (hx : execDrawStringFixed x y c size payload s = .next t) :
    RequestEffect (.drawStringFixed x y c size payload) s t := by
  unfold execDrawStringFixed at hx
  split at hx
  · obtain rfl := Host.Outcome.next.inj hx
    refine .withDevice fun d hd => ?_
    split_ifs
    · exact .logged _ _
    · exact .drawText hd ⟨0xD, rfl, by decide⟩ _ c
  · cases hx

theorem execDrawCharGfx_effect {x y : Int} {ch : Byte} {c : Color} {s t : State}
    (hx : execDrawCharGfx x y ch c s = .next t) : RequestEffect (.drawCharGfx x y ch c) s t := by
  unfold execDrawCharGfx at hx
  split at hx
  · obtain rfl := Host.Outcome.next.inj hx
    exact .withDevice fun d hd => .drawText hd ⟨0xE, rfl, by decide⟩ _ c
  · cases hx

theorem execDrawStringGfx_effect {x y : Int} {c : Color} {payload : List Byte} {s t : State}
    (hx : execDrawStringGfx x y c payload s = .next t) :
    RequestEffect (.drawStringGfx x y c payload) s t := by
  unfold execDrawStringGfx at hx
  split at hx
  · obtain rfl := Host.Outcome.next.inj hx
    exact .withDevice fun d hd => .drawText hd ⟨0xF, rfl, by decide⟩ _ c
  · cases hx

/-- Everything executing an instruction can do: a request has a `RequestEffect`, a frame is one transaction
at the decoder, an event is given to the transport. -/
inductive ExecEffect (i : Instr) (s : State) : State → Prop where
  | request {t op} (hop : opcodeOf i = some op) (h : RequestEffect i s t) : ExecEffect i s t
  | frame (ev : Event) (hop : opcodeOf i = none) : ExecEffect i s (s.transaction ev)
  | event (ev : Event) (hop : opcodeOf i = none) : ExecEffect i s (s.carry ev)

/-- What each instruction does, one arm a row of the opcode table. -/
theorem exec_effect {i : Instr} {s t : State} (h : exec i s = .next t) : ExecEffect i s t := by
  cases i with
  | reserved =>
    obtain rfl := Host.Outcome.next.inj h
    exact .request rfl (.logged _ _)
  | init width height rotation => exact .request rfl (execInit_effect h)
  | setWindow x1 y1 x2 y2 => exact .request rfl (execSetWindow_effect h)
  | setRotation rotation => exact .request rfl (execSetRotation_effect h)
  | setColorOrder isRgb => exact .request rfl (execSetColorOrder_effect h)
  | writeData16 word => exact .request rfl (execWriteData16_effect h)
  | drawPixel x y color => exact .request rfl (execDrawPixel_effect h)
  | fillRect x y w h color => exact .request rfl (execFillRect_effect ‹_›)
  | drawLine x0 y0 x1 y1 color => exact .request rfl (execDrawLine_effect h)
  | drawRect x y w h color => exact .request rfl (execDrawRect_effect ‹_›)
  | drawCircle x y r color => exact .request rfl (execDrawCircle_effect h)
  | fillCircle x y r color => exact .request rfl (execFillCircle_effect h)
  | drawCharFixed x y ch color size => exact .request rfl (execDrawCharFixed_effect h)
  | drawStringFixed x y color size payload => exact .request rfl (execDrawStringFixed_effect h)
  | drawCharGfx x y ch color => exact .request rfl (execDrawCharGfx_effect h)
  | drawStringGfx x y color payload => exact .request rfl (execDrawStringGfx_effect h)
  | cmd reg =>
    obtain rfl := Host.Outcome.next.inj h
    exact .frame _ rfl
  | data word =>
    obtain rfl := Host.Outcome.next.inj h
    exact .frame _ rfl
  | eventCmd reg =>
    obtain rfl := Host.Outcome.next.inj h
    exact .event _ rfl
  | eventData word =>
    obtain rfl := Host.Outcome.next.inj h
    exact .event _ rfl
  | eventDelay ms =>
    obtain rfl := Host.Outcome.next.inj h
    exact .event _ rfl
  | eventReset =>
    obtain rfl := Host.Outcome.next.inj h
    exact .event _ rfl

/-- A request's effect, told from its opcode. -/
theorem exec_requestEffect {i : Instr} {s t : State} {op : BitVec 4} (hop : opcodeOf i = some op)
    (h : exec i s = .next t) : RequestEffect i s t := by
  cases exec_effect h with
  | request _ heffect => exact heffect
  | frame _ hnone => cases hop.symm.trans hnone
  | event _ hnone => cases hop.symm.trans hnone

end Sys2Proof.Machine
end

section
/-! SUPPORT. Everything one step can do, and the proofs that every step keeps the invariant of the machine
and only lengthens its streams. -/

namespace Sys2Proof.Machine

/-! ## Streams that grow -/

theorem streamLatched_concat_cmd (out : List Event) (r : RegAddr) :
    streamLatched (out ++ [.cmd r]) = some r := by simp [streamLatched]

theorem streamLatched_concat_data (out : List Event) (w : Word16) :
    streamLatched (out ++ [.data w]) = streamLatched out := by simp [streamLatched]

theorem streamLatched_concat_delay (out : List Event) (ms : Nat) :
    streamLatched (out ++ [.delay ms]) = streamLatched out := by simp [streamLatched]

theorem streamLatched_concat_reset (out : List Event) : streamLatched (out ++ [.reset]) = none := by
  simp [streamLatched]

/-- One more event keeps a stream in the grammar unless it is a data word with nothing latched
(30_encoding R112). -/
theorem streamOk_concat {out : List Event} {ev : Event} (h : streamOk out)
    (hdata : ∀ w, ev = .data w → (streamLatched out).isSome = true) : streamOk (out ++ [ev]) := by
  intro before w after heq
  rcases List.eq_nil_or_concat' after with rfl | ⟨after', last, rfl⟩
  · obtain ⟨rfl, hev⟩ := List.append_inj' heq rfl
    exact hdata w (List.singleton_inj.mp hev)
  · rw [← List.cons_append, ← List.append_assoc] at heq
    exact h before w after' (List.append_inj_left' heq rfl)

/-- Only mapped registers are named in the stream, it keeps to the grammar, and it leaves `l` latched: what
`Front.Ok` asks of `E.out`. -/
def StreamGood (p : Params) (out : List Event) (l : Option RegAddr) : Prop :=
  (∀ r, Event.cmd r ∈ out → p.mapped r = true) ∧ streamOk out ∧ streamLatched out = l

/-- A good stream lengthened by a run from what it leaves latched is good. -/
theorem StreamGood.append_run {p : Params} {out evs : List Event} {l l' : Option RegAddr}
    (hout : StreamGood p out l) (hrun : StreamRun p l evs l') : StreamGood p (out ++ evs) l' := by
  induction hrun generalizing out with
  | nil => rwa [List.append_nil]
  | cmd hr _ ih =>
    obtain ⟨hmapped, hok, -⟩ := hout
    rw [List.append_cons]
    refine ih ⟨fun q hq => ?_, streamOk_concat hok (by simp), streamLatched_concat_cmd out _⟩
    rcases List.mem_append.mp hq with hq | hq
    · exact hmapped q hq
    · obtain rfl := Event.cmd.inj (List.mem_singleton.mp hq)
      exact hr
  | data _ ih =>
    obtain ⟨hmapped, hok, hlatched⟩ := hout
    rw [List.append_cons]
    exact ih ⟨by simpa using hmapped, streamOk_concat hok (by simp [hlatched]),
      (streamLatched_concat_data out _).trans hlatched⟩
  | delay _ ih =>
    obtain ⟨hmapped, hok, hlatched⟩ := hout
    rw [List.append_cons]
    exact ih ⟨by simpa using hmapped, streamOk_concat hok (by simp),
      (streamLatched_concat_delay out _).trans hlatched⟩
  | reset _ ih =>
    obtain ⟨hmapped, hok, -⟩ := hout
    rw [List.append_cons]
    exact ih ⟨by simpa using hmapped, streamOk_concat hok (by simp), streamLatched_concat_reset out⟩

/-! ## Good DeviceStates -/

/-- What the addressing rule keeps, any number of advances keep. -/
theorem DeviceState.advanceTimes_keeps {P : DeviceState → Prop} (h : ∀ d, P d → P d.advanceCursor) (n : Nat)
    {d : DeviceState} (hd : P d) : P (d.advanceTimes n) := by
  induction n generalizing d with
  | zero => exact hd
  | succ n ih => exact ih (h d hd)

theorem DeviceState.advanceCursor_ok {p : Params} {d : DeviceState} (h : d.Ok p) : d.advanceCursor.Ok p := by
  obtain ⟨hw, hwm, hh, hhm, hx, hx1, hx2, hxm, hy, hy1, hy2, hym⟩ := h
  obtain ⟨hcx1, hcx2, hcy1, hcy2⟩ := advance_mem hx1 hx2 hy1 hy2
  exact ⟨hw, hwm, hh, hhm, hx, hcx1, hcx2, hxm, hy, hcy1, hcy2, hym⟩

theorem DeviceState.setWindow_ok {p : Params} {d : DeviceState} {w : Window Int} (h : d.Ok p)
    (hw : d.Holds w) : (d.setWindow w).Ok p := by
  simp only [DeviceState.Ok, DeviceState.Holds, DeviceState.setWindow_width, DeviceState.setWindow_height,
    DeviceState.setWindow_win, DeviceState.setWindow_cx, DeviceState.setWindow_cy] at *
  omega

/-- An axis change exchanges the extents, which the bound by the larger one does not see (70_reset R357). -/
theorem DeviceState.rotate_ok {p : Params} {d : DeviceState} (rot : BitVec 3) (h : d.Ok p) :
    (d.rotate rot).Ok p := by
  unfold DeviceState.rotate
  split_ifs
  · exact h
  · simp only [DeviceState.Ok] at *
    omega

theorem createdDevice_ok {p : Params} {w h rot : Int} (hin : initInRange p w h rot = true) :
    (createdDevice p w h rot).Ok p := by
  simp only [initInRange, Bool.and_eq_true, decide_eq_true_eq] at hin
  simp only [DeviceState.Ok, createdDevice]
  omega

/-- Whatever a request makes of a good DeviceState is good (10_state R32, R37). -/
theorem DeviceMove.ok {p : Params} {i : Instr} {before : Option DeviceState} {d : DeviceState}
    (hmove : DeviceMove p i before d) (hbefore : ∀ d, before = some d → d.Ok p) : d.Ok p := by
  cases hmove with
  | created hin => exact createdDevice_ok hin
  | windowed n hw =>
    have hd := hbefore _ rfl
    exact DeviceState.advanceTimes_keeps (P := DeviceState.Ok p) (fun _ => DeviceState.advanceCursor_ok) n
      (DeviceState.setWindow_ok hd (hw hd.1 hd.2.2.1))
  | rotated _ => exact DeviceState.rotate_ok _ (hbefore _ rfl)
  | reordered order =>
    have hd := hbefore _ rfl
    exact hd
  | advanced => exact DeviceState.advanceCursor_ok (hbefore _ rfl)

/-! ## The invariant under what is executed -/

theorem RequestEffect.inv {i : Instr} {s t : State} (h : RequestEffect i s t) (hwf : s.par.wf = true)
    (hs : s.Inv) : t.Inv := by
  induction h with
  | unchanged => exact hs
  | logged code op => exact hs
  | sent hne hrun hmove =>
    obtain ⟨⟨hdev, hmapped, hok, hlatched⟩, hdec, -⟩ := hs
    have hrun := hrun (streamLatched s.enc.out) fun hsome => (hlatched hsome).1
    obtain ⟨hmapped', hok', hlatched'⟩ := StreamGood.append_run ⟨hmapped, hok, rfl⟩ hrun
    refine ⟨⟨?_, hmapped', hok', fun _ => ⟨hlatched', rfl⟩⟩, hdec, State.sent_readyOk s hne _ _⟩
    rintro _ ⟨⟩
    exact (hmove hwf).ok hdev
  | penned pen _ _ ih => exact ih

theorem ExecEffect.inv {i : Instr} {s t : State} (h : ExecEffect i s t) (hwf : s.par.wf = true)
    (hs : s.Inv) : t.Inv := by
  cases h with
  | request _ heffect => exact heffect.inv hwf hs
  | frame ev _ => exact ⟨hs.1, Dec.pins_ok _ hs.2.1, hs.2.2⟩
  | event ev _ => exact ⟨hs.1, hs.2.1, State.carry_readyOk ev hs.2.2⟩

theorem State.transportTurn_inv {s : State} (hs : s.Inv) : s.transportTurn.Inv := by
  obtain ⟨henc, hdec, hready⟩ := hs
  have hready' := State.transportTurn_readyOk hready
  cases hw : s.wire with
  | nil =>
    rw [State.transportTurn_idle hw] at hready' ⊢
    exact ⟨henc, hdec, hready'⟩
  | cons a more =>
    rw [State.transportTurn_carries hw] at hready' ⊢
    exact ⟨henc, Dec.pin_ok a hdec, hready'⟩

/-! ## One step -/

/-- Everything one step can do with the input at the head of the line, which it takes off unless that is a
waiting requester and `E.ready` is 0. -/
inductive StepEffect (s : State) : State → Prop where
  | carried (inputs : List Input) : StepEffect s (State.transportTurn { s with inputs := inputs })
  | executed {t i} (rest : List Input) (h : exec i { s with inputs := rest } = .next t) : StepEffect s t
  | awaited (rest : List Input) : StepEffect s { s with inputs := rest }
  | pinned (a : PinAction) (rest : List Input) : StepEffect s (State.pinInput a { s with inputs := rest })
  | flushed (rest : List Input) : StepEffect s (State.flushInput { s with inputs := rest })
  | answered (a : Answer) (rest : List Input) :
      StepEffect s { s with inputs := rest, result := .answer a }
  | created {rest} (h : s.inputs = .createDecoder :: rest) :
      StepEffect s (State.createDecoder { s with inputs := rest })

/-- An instruction that the step accepts is decoded and executed. -/
theorem State.takeInstr_next {s t : State} {w : PortWord} (h : s.takeInstr w = .next t) :
    ∃ i, decode w = .ok i ∧ exec i s = .next t := by
  unfold State.takeInstr at h
  split at h
  · cases h
  · split at h
    · cases h
    · exact ⟨_, ‹_›, h⟩

/-- A step is taken under well-formed parameters only, and it is one of these. -/
theorem step_effect {s t : State} (h : step s = .next t) : s.par.wf = true ∧ StepEffect s t := by
  unfold step State.turn at h
  split at h
  · refine ⟨‹_›, ?_⟩
    cases hin : s.inputs with
    | nil =>
      simp only [hin] at h
      obtain rfl := Host.Outcome.next.inj h
      exact .carried s.inputs
    | cons input rest =>
      simp only [hin] at h
      cases input with
      | instr w =>
        obtain ⟨i, -, hexec⟩ := State.takeInstr_next h
        exact .executed rest hexec
      | awaitReady =>
        simp only [State.takeInput] at h
        split at h <;> obtain rfl := Host.Outcome.next.inj h
        · exact .awaited rest
        · exact .carried _
      | transport =>
        obtain rfl := Host.Outcome.next.inj h
        exact .carried rest
      | pin a =>
        simp only [State.takeInput, State.pinTurn] at h
        split at h
        · cases h
        · obtain rfl := Host.Outcome.next.inj h
          exact .pinned a rest
      | flush =>
        obtain rfl := Host.Outcome.next.inj h
        exact .flushed rest
      | read q =>
        simp only [State.takeInput, State.readInput] at h
        split at h
        · obtain rfl := Host.Outcome.next.inj h
          exact .answered _ rest
        · cases h
      | createDecoder =>
        obtain rfl := Host.Outcome.next.inj h
        exact .created hin
  · cases h

/-- The line of inputs and the result of the last one are no part of the invariant. -/
theorem StepEffect.inv {s t : State} (h : StepEffect s t) (hwf : s.par.wf = true) (hs : s.Inv) : t.Inv := by
  cases h with
  | carried inputs => exact State.transportTurn_inv (s := { s with inputs := inputs }) hs
  | executed rest h => exact (exec_effect h).inv hwf hs
  | awaited rest => exact hs
  | pinned a rest => exact ⟨hs.1, Dec.pin_ok a hs.2.1, hs.2.2⟩
  | flushed rest => exact ⟨hs.1, Dec.flush_ok hs.2.1, hs.2.2⟩
  | answered a rest => exact hs
  | created _ => exact ⟨hs.1, Dec.created_ok s.par, hs.2.2⟩

/-- Settles O57: what a step can do, and that each of it keeps the invariant. -/
theorem stepKeepsTheInvariant : Obligations.StepKeepsTheInvariant := by
  intro s t hs hstep
  obtain ⟨hwf, heffect⟩ := step_effect hstep
  exact heffect.inv hwf hs

/-! ## The decoder's frames -/

theorem Dec.registerWord_frames (p : Params) (r : RegAddr) (w : Word16) (d : Dec) :
    (d.registerWord p r w).1.frames = d.frames := by
  unfold Dec.registerWord
  split_ifs
  · rcases d.gramWrite_cases p w with ⟨-, h⟩ | ⟨-, -, h⟩ | ⟨-, -, h⟩ <;> rw [h] <;> rfl
  all_goals rfl

theorem Dec.dataWord_frames (p : Params) (w : Word16) (d : Dec) :
    (Dec.dataWord p w d).1.frames = d.frames := by
  unfold Dec.dataWord
  split
  · rfl
  · exact Dec.registerWord_frames p _ w d

theorem Dec.dataBytes_frames (p : Params) (bytes : List Byte) (d : Dec) :
    (Dec.dataBytes p bytes d).1.frames = d.frames := by
  induction bytes generalizing d with
  | nil => rfl
  | cons b bytes ih =>
    unfold Dec.dataBytes
    cases d.partialByte with
    | none => exact ih _
    | some high =>
      have hword := Dec.dataWord_frames p (high ++ b) { d with partialByte := none, phase := .commandLatched }
      simp only
      generalize Dec.dataWord p (high ++ b) _ = res at hword ⊢
      obtain ⟨d', _ | e⟩ := res
      · exact (ih d').trans hword
      · exact hword

/-- A pin action sends no frame: only a flush does (44_decoder R275). -/
theorem Dec.pin_frames (p : Params) (a : PinAction) (d : Dec) : (d.pin p a).1.frames = d.frames := by
  unfold Dec.pin
  split_ifs
  · rfl
  · cases a with
    | selectMode m => rfl
    | selectChip active => rfl
    | resetPulse l w => rfl
    | delay ms => rfl
    | writeBytes bytes =>
      simp only [Dec.writeBytes]
      split_ifs
      · rfl
      · cases d.rs with
        | none => rfl
        | some m =>
          cases m with
          | cmd =>
            rcases d.commandStrobe_cases p bytes with ⟨r, -, -, h⟩ | ⟨r, -, -, h⟩ | ⟨-, h⟩ <;>
              simp only [h] <;> rfl
          | data =>
            simp only [Dec.dataStrobe]
            split_ifs
            · rfl
            · exact Dec.dataBytes_frames p bytes d

theorem Dec.pins_frames (p : Params) (l : List PinAction) (d : Dec) :
    (Dec.pins p l d).1.frames = d.frames := by
  induction l generalizing d with
  | nil => rfl
  | cons a l ih => exact (ih _).trans (Dec.pin_frames p a d)

/-- A flush sends at most one frame, after those sent (44_decoder R275). -/
theorem Dec.flush_frames (p : Params) (d : Dec) : d.frames <+: (d.flush p).frames := by
  unfold Dec.flush
  split_ifs
  · exact List.prefix_refl _
  · exact List.prefix_refl _
  · exact List.prefix_append _ _

/-! ## What every step keeps -/

/-- `t` has the parameters of `s` and every stream of the front end with its old contents first. -/
def State.Extends (s t : State) : Prop :=
  t.par = s.par ∧ s.enc.out <+: t.enc.out ∧ s.enc.log <+: t.enc.log

theorem State.extends_of_enc_eq {s t : State} (hpar : t.par = s.par) (hout : t.enc.out = s.enc.out)
    (hlog : t.enc.log = s.enc.log) : s.Extends t :=
  ⟨hpar, hout ▸ List.prefix_refl _, hlog ▸ List.prefix_refl _⟩

theorem RequestEffect.extends_dec {i : Instr} {s t : State} (h : RequestEffect i s t) :
    s.Extends t ∧ t.dec = s.dec := by
  induction h with
  | unchanged => exact ⟨State.extends_of_enc_eq rfl rfl rfl, rfl⟩
  | logged code op => exact ⟨⟨rfl, List.prefix_refl _, List.prefix_append _ _⟩, rfl⟩
  | sent _ _ _ => exact ⟨⟨rfl, List.prefix_append _ _, List.prefix_refl _⟩, rfl⟩
  | penned pen _ _ ih => exact ih

theorem ExecEffect.extends_frames {i : Instr} {s t : State} (h : ExecEffect i s t) :
    s.Extends t ∧ t.dec.frames = s.dec.frames := by
  cases h with
  | request _ heffect => exact heffect.extends_dec.imp_right (congrArg Dec.frames)
  | frame ev _ => exact ⟨State.extends_of_enc_eq rfl rfl rfl, Dec.pins_frames s.par _ s.dec⟩
  | event ev _ => exact ⟨State.extends_of_enc_eq rfl rfl rfl, rfl⟩

theorem State.transportTurn_extends_frames (s : State) :
    s.Extends s.transportTurn ∧ s.transportTurn.dec.frames = s.dec.frames := by
  cases hw : s.wire with
  | nil =>
    rw [State.transportTurn_idle hw]
    exact ⟨State.extends_of_enc_eq rfl rfl rfl, rfl⟩
  | cons a more =>
    rw [State.transportTurn_carries hw]
    exact ⟨State.extends_of_enc_eq rfl rfl rfl, Dec.pin_frames s.par a s.dec⟩

theorem StepEffect.extends_frames {s t : State} (h : StepEffect s t) :
    s.Extends t ∧
      ((∀ rest, s.inputs ≠ .createDecoder :: rest) → s.dec.frames <+: t.dec.frames) := by
  have kept : ∀ {fs : List Frame}, fs = s.dec.frames →
      (∀ rest, s.inputs ≠ .createDecoder :: rest) → s.dec.frames <+: fs :=
    fun hfs _ => hfs ▸ List.prefix_refl _
  cases h with
  | carried inputs => exact (State.transportTurn_extends_frames { s with inputs := inputs }).imp_right kept
  | executed rest h => exact (exec_effect h).extends_frames.imp_right kept
  | awaited rest => exact ⟨State.extends_of_enc_eq rfl rfl rfl, kept rfl⟩
  | pinned a rest => exact ⟨State.extends_of_enc_eq rfl rfl rfl, kept (Dec.pin_frames s.par a s.dec)⟩
  | flushed rest => exact ⟨State.extends_of_enc_eq rfl rfl rfl, fun _ => Dec.flush_frames s.par s.dec⟩
  | answered a rest => exact ⟨State.extends_of_enc_eq rfl rfl rfl, kept rfl⟩
  | created hin => exact ⟨State.extends_of_enc_eq rfl rfl rfl, fun hne => absurd hin (hne _)⟩

/-- Settles O55: each thing a step can do appends to the streams at most. -/
theorem streamsOnlyGrow : Obligations.StreamsOnlyGrow := by
  intro s t hstep
  obtain ⟨⟨hpar, hout, hlog⟩, hframes⟩ := (step_effect hstep).2.extends_frames
  exact ⟨hpar, hout, hlog, hframes⟩

end Sys2Proof.Machine
end

section
/-! SUPPORT. What the step accepts and refuses, what a request leaves to the wire, the window on the device,
and the state after reset. -/

namespace Sys2Proof.Machine

/-! ## Instructions on their ports -/

/-- An instruction at the head of the line is taken off it and put to its port. -/
theorem step_instr {s : State} {w : PortWord} {rest : List Input} (hwf : s.par.wf = true)
    (hin : s.inputs = .instr w :: rest) : step s = State.takeInstr w { s with inputs := rest } := by
  simp [step, State.turn, hwf, hin, State.takeInput]

theorem step_pin {s : State} {a : PinAction} {rest : List Input} (hwf : s.par.wf = true)
    (hin : s.inputs = .pin a :: rest) : step s = State.pinTurn a { s with inputs := rest } := by
  simp [step, State.turn, hwf, hin, State.takeInput]

theorem step_illFormedParameters {s : State} (h : ¬ s.par.wf = true) :
    step s = .refused .illFormedParameters := by
  simp [step, State.turn, h]

theorem State.takeInstr_closed {s : State} {w : PortWord} {r : Refusal} (h : s.portRefusal w = some r) :
    s.takeInstr w = .refused r := by
  simp [State.takeInstr, h]

theorem State.takeInstr_undecodable {s : State} {w : PortWord} {why : DecodeError}
    (hport : s.portRefusal w = none) (hdec : decode w = .error why) :
    s.takeInstr w = .refused (.undecodable why) := by
  simp [State.takeInstr, hport, hdec]

theorem State.takeInstr_decoded {s : State} {w : PortWord} {i : Instr} (hport : s.portRefusal w = none)
    (hdec : decode w = .ok i) : s.takeInstr w = exec i s := by
  simp [State.takeInstr, hport, hdec]

/-- The request port is open while `E.ready` is 1, the frame port between two events, the transport's always
(10_state R44, 40_transport R149). -/
theorem State.portRefusal_open {s : State} {w : PortWord}
    (hrequest : (∃ q P, w = .request q P) → s.enc.ready = true)
    (hframe : (∃ t, w = .frame t) → s.midEvent = false) : s.portRefusal w = none := by
  cases w with
  | request q P => simp [State.portRefusal, hrequest ⟨q, P, rfl⟩]
  | frame t => simp [State.portRefusal, hframe ⟨t, rfl⟩]
  | event tag arg => rfl

/-- The transport is inside an event while the next pin action selects or deselects the chip or sends bytes
(40_transport R149). -/
theorem State.midEvent_of_wire {s : State} {a : PinAction} {more : List PinAction} (hw : s.wire = a :: more)
    (ha : (∃ b, a = .selectChip b) ∨ ∃ bytes, a = .writeBytes bytes) : s.midEvent = true := by
  rcases ha with ⟨b, rfl⟩ | ⟨bytes, rfl⟩ <;> simp [State.midEvent, hw]

/-- Settles O8: the port is open and the word decodes, so that the step executes. -/
theorem stepRunsDecodedInstruction : Obligations.StepRunsDecodedInstruction := by
  constructor
  · intro s w i rest hwf hin hdec hrequest hframe
    rw [step_instr hwf hin]
    exact State.takeInstr_decoded (State.portRefusal_open hrequest hframe) hdec
  · intro s nbits w i hwf htable
    have hdec : decode (portWordOf nbits w) = .ok i := by
      unfold decodeTableWord at htable
      split at htable
      · rwa [← Option.some.inj htable]
      · cases htable
    rw [State.withFetchWord, step_instr (s := s.present nbits w) hwf rfl]
    exact State.takeInstr_decoded (State.portRefusal_open (fun _ => rfl) fun _ => rfl) hdec

/-- The conditions the spec states of a well-formed parameter set, but for the register roles (00_scope R8,
41_encoder_config R172, 45_text R291, R300). -/
theorem Params.wf_conditions {p : Params} (h : p.wf = true) :
    [p.entryOrdBit, p.entryId1Bit, p.entryId0Bit, p.entryAmBit].Nodup ∧
    (∀ b ∈ [p.entryOrdBit, p.entryId1Bit, p.entryId0Bit, p.entryAmBit], b ≤ 15) ∧
    p.regGram ∉ initRegisters p.initSequence ∧
    p.fixedFont.data.length =
      (p.fixedFont.lastChar.toNat - p.fixedFont.firstChar.toNat + 1) * p.fixedFont.cellWidth ∧
    ∀ g ∈ p.gfxFont.glyphs, g.bitmapOffset + (g.width * g.height + 7) / 8 ≤ p.gfxFont.bitmap.length := by
  simp only [Params.wf, Params.entryBitsWf, Params.initSequenceWf, FixedFont.wf, GfxFont.wf, Bool.and_eq_true,
    decide_eq_true_eq, List.all_eq_true] at h
  obtain ⟨-, ⟨hdistinct, hrange⟩, hinit, -, ⟨-, hfixed⟩, -, hgfx⟩ := h
  refine ⟨hdistinct, hrange, hinit, hfixed, fun g hg => ?_⟩
  have hglyph := hgfx g hg
  simp only [GfxGlyph.wf, Bool.and_eq_true, decide_eq_true_eq] at hglyph
  exact hglyph.2

/-- Settles O9: each input meets its closed port or an undecodable word, and each ill-formed parameter set
breaks one condition of `Params.wf`. -/
theorem illFormedInputsRefused : Obligations.IllFormedInputsRefused := by
  refine ⟨fun s rest hwf => ⟨?_, ?_, ?_, ?_, ?_⟩, fun s hill => ?_⟩
  · intro q P hin hbusy
    rw [step_instr hwf hin]
    exact State.takeInstr_closed (by simp [State.portRefusal, hbusy])
  · intro a more hwire ha
    have hmid : State.midEvent { s with inputs := rest } = true := State.midEvent_of_wire hwire ha
    refine ⟨fun t hin => ?_, fun x hin => ?_⟩
    · rw [step_instr hwf hin]
      exact State.takeInstr_closed (by simp [State.portRefusal, hmid])
    · rw [step_pin hwf hin, State.pinTurn, if_pos hmid]
  · intro q P why hin hready hdec
    rw [step_instr hwf hin]
    exact State.takeInstr_undecodable (State.portRefusal_open (fun _ => hready) (by simp)) hdec
  · intro t why hin hmid hdec
    rw [step_instr hwf hin]
    exact State.takeInstr_undecodable (State.portRefusal_open (by simp) fun _ => hmid) hdec
  · intro tag arg why hin hdec
    rw [step_instr hwf hin]
    exact State.takeInstr_undecodable rfl hdec
  · refine step_illFormedParameters fun hwf => ?_
    obtain ⟨hdistinct, hrange, hinit, hfixed, hgfx⟩ := Params.wf_conditions hwf
    rcases hill with hroles | hbits | ⟨b, hb, hlarge⟩ | ⟨v, hv⟩ | hdata | ⟨g, hg, hbitmap⟩
    · exact hroles (Params.wf_roles hwf)
    · exact hbits hdistinct
    · exact absurd (hrange b hb) (Nat.not_le.mpr hlarge)
    · exact hinit (mem_initRegisters_iff.mpr ⟨v, hv⟩)
    · exact hdata hfixed
    · exact absurd (hgfx g hg) (Nat.not_le.mpr hbitmap)

/-! ## The window on the device -/

theorem DeviceState.advanceCursor_onDevice {d : DeviceState} (h : d.OnDevice) : d.advanceCursor.OnDevice := by
  obtain ⟨hx, hx1, hx2, hxw, hy, hy1, hy2, hyh⟩ := h
  obtain ⟨hcx1, hcx2, hcy1, hcy2⟩ := advance_mem hx1 hx2 hy1 hy2
  exact ⟨hx, hcx1, hcx2, hxw, hy, hcy1, hcy2, hyh⟩

theorem DeviceState.setWindow_onDevice {d : DeviceState} {w : Window Int} (hw : d.Holds w) :
    (d.setWindow w).OnDevice := by
  obtain ⟨hx, hx12, hxw, hy, hy12, hyh⟩ := hw
  exact ⟨hx, le_refl _, hx12, hxw, hy, le_refl _, hy12, hyh⟩

/-- A device with a window on it has a cell. -/
theorem DeviceState.OnDevice.one_le {d : DeviceState} (h : d.OnDevice) : 1 ≤ d.width ∧ 1 ≤ d.height := by
  simp only [DeviceState.OnDevice] at h
  omega

theorem createdDevice_onDevice {p : Params} {w h rot : Int} (hin : initInRange p w h rot = true) :
    (createdDevice p w h rot).OnDevice := by
  simp only [initInRange, Bool.and_eq_true, decide_eq_true_eq] at hin
  simp only [DeviceState.OnDevice, createdDevice]
  omega

/-- Every move but an axis change keeps the window on the device and the cursor in it (10_state R41, 70_reset
R357). -/
theorem DeviceMove.onDevice {p : Params} {i : Instr} {before : Option DeviceState} {d : DeviceState}
    (hmove : DeviceMove p i before d) (hbefore : ∀ d, before = some d → d.OnDevice)
    (haxis : ∀ d rot, i = .setRotation rot → before = some d →
      (BitVec.ofInt 3 rot).getLsbD 2 = d.rotation.getLsbD 2) : d.OnDevice := by
  cases hmove with
  | created hin => exact createdDevice_onDevice hin
  | windowed n hw =>
    obtain ⟨hwidth, hheight⟩ := (hbefore _ rfl).one_le
    exact DeviceState.advanceTimes_keeps (P := DeviceState.OnDevice)
      (fun _ => DeviceState.advanceCursor_onDevice) n (DeviceState.setWindow_onDevice (hw hwidth hheight))
  | rotated hi =>
    have hd := hbefore _ rfl
    rw [DeviceState.rotate, if_pos (haxis _ _ hi rfl).symm]
    exact hd
  | reordered order =>
    have hd := hbefore _ rfl
    exact hd
  | advanced => exact DeviceState.advanceCursor_onDevice (hbefore _ rfl)

/-- The DeviceState after a request is the one before or a move of it. -/
theorem RequestEffect.dev {i : Instr} {s t : State} (h : RequestEffect i s t) (hwf : s.par.wf = true) :
    t.enc.dev = s.enc.dev ∨ ∃ d, t.enc.dev = some d ∧ DeviceMove s.par i s.enc.dev d := by
  induction h with
  | unchanged => exact .inl rfl
  | logged code op => exact .inl rfl
  | sent _ _ hmove => exact .inr ⟨_, rfl, hmove hwf⟩
  | penned pen _ _ ih => exact ih

/-- Settles O25: a request keeps the DeviceState or moves it, and each move keeps the window on it. -/
theorem requestsKeepWindowOnDevice : Obligations.RequestsKeepWindowOnDevice := by
  rintro i s t ⟨op, hop⟩ hwf hbefore haxis hexec d hd
  rcases (exec_requestEffect hop hexec).dev hwf with hsame | ⟨d', hd', hmove⟩
  · exact hbefore d (hsame ▸ hd)
  · obtain rfl := Option.some.inj (hd'.symm.trans hd)
    exact hmove.onDevice hbefore haxis

/-! ## The wire between the units -/

/-- A request leaves everything but the front end and the wire. -/
theorem RequestEffect.keeps {i : Instr} {s t : State} (h : RequestEffect i s t) :
    t.dec = s.dec ∧ t.par = s.par ∧ t.inputs = s.inputs ∧ t.result = s.result := by
  induction h with
  | unchanged => exact ⟨rfl, rfl, rfl, rfl⟩
  | logged code op => exact ⟨rfl, rfl, rfl, rfl⟩
  | sent _ _ _ => exact ⟨rfl, rfl, rfl, rfl⟩
  | penned pen _ _ ih => exact ih

/-- What a request appends to `E.out` stands on the wire as pin actions, and `E.ready` waits for it
(40_transport R149, R153). -/
theorem RequestEffect.wire {i : Instr} {s t : State} (h : RequestEffect i s t) :
    ∃ evs, t.enc.out = s.enc.out ++ evs ∧ t.wire = s.wire ++ evs.flatMap framing ∧
      (evs = [] → t.enc.ready = s.enc.ready ∧ t.owed = s.owed) ∧
      (evs ≠ [] → t.enc.ready = false ∧ t.owed = t.wire.length) := by
  induction h with
  | unchanged => exact ⟨[], by simp⟩
  | logged code op => exact ⟨[], by simp [State.logged]⟩
  | sent hne _ _ => exact ⟨_, rfl, rfl, fun hnil => absurd hnil hne, fun _ => ⟨rfl, rfl⟩⟩
  | penned pen _ _ ih => exact ih

/-- Only the text requests write the pen (45_text R306). -/
theorem RequestEffect.pen {i : Instr} {s t : State} (h : RequestEffect i s t)
    (hop : ∀ op, opcodeOf i = some op → op.toNat < 0xC) :
    t.enc.penX = s.enc.penX ∧ t.enc.penY = s.enc.penY := by
  cases h with
  | unchanged => exact ⟨rfl, rfl⟩
  | logged code op => exact ⟨rfl, rfl⟩
  | sent _ _ _ => exact ⟨rfl, rfl⟩
  | penned pen htext _ =>
    obtain ⟨op, hop', hle⟩ := htext
    exact absurd (hop op hop') (Nat.not_lt.mpr hle)

/-- Settles O54: a request is told by its effect; a frame reaches the decoder and an event the wire alone. -/
theorem unitsMeetOnTheWireAlone : Obligations.UnitsMeetOnTheWireAlone := by
  intro i s t hexec
  constructor
  · rintro ⟨op, hop⟩
    have heffect := exec_requestEffect hop hexec
    obtain ⟨hdec, hpar, hinputs, hresult⟩ := heffect.keeps
    exact ⟨hdec, hpar, hinputs, hresult, heffect.wire, heffect.pen⟩
  · intro hnone
    cases exec_effect hexec with
    | request hop _ => cases hnone.symm.trans hop
    | frame ev _ => exact ⟨rfl, rfl, rfl, rfl⟩
    | event ev _ => exact ⟨rfl, rfl, rfl, rfl⟩

/-! ## Reset -/

theorem resetWindow_defaultParams : resetWindow defaultParams = ⟨0, 0, 175, 219⟩ := by decide

/-- Settles O13: power-on of the front end and creation of the decoder with the default framebuffer. -/
theorem resetStateIsPowerOn : Obligations.ResetStateIsPowerOn := by
  unfold Obligations.ResetStateIsPowerOn State.reset State.resetWith Front.powerOn Dec.created
  rw [resetWindow_defaultParams]

theorem Front.powerOn_ok (p : Params) : Front.powerOn.Ok p :=
  ⟨by simp [Front.powerOn], by simp [Front.powerOn], fun _ _ _ h => by simp [Front.powerOn] at h,
    by simp [Front.powerOn]⟩

theorem State.resetWith_inv (p : Params) : (State.resetWith p).Inv :=
  ⟨Front.powerOn_ok p, Dec.created_ok p, by simp [State.ReadyOk, State.resetWith, Front.powerOn]⟩

/-- Settles O56: both units are good at reset whatever the parameters, and nothing is owed. -/
theorem resetMeetsTheInvariant : Obligations.ResetMeetsTheInvariant := State.resetWith_inv defaultParams

end Sys2Proof.Machine
end

section
/-! SUPPORT. Data words at the decoder: a data strobe as its bytes, a Data frame to each register, and the
text requests that an ill-formed font stops. -/

namespace Sys2Proof.Machine

/-! ## Data strobes -/

/-- A word to a register leaves the pin lines (44_decoder R260 to R264). -/
theorem Dec.registerWord_lines (p : Params) (r : RegAddr) (w : Word16) (d : Dec) :
    (d.registerWord p r w).1.rs = d.rs ∧ (d.registerWord p r w).1.cs = d.cs := by
  unfold Dec.registerWord
  split_ifs
  · rcases d.gramWrite_cases p w with ⟨-, h⟩ | ⟨-, -, h⟩ | ⟨-, -, h⟩ <;> rw [h] <;> exact ⟨rfl, rfl⟩
  all_goals exact ⟨rfl, rfl⟩

/-- The decoder takes data bytes: no fault, selected, in data mode, with a register latched (44_decoder R253,
R257). -/
def Dec.TakesData (d : Dec) : Prop :=
  d.err = none ∧ d.cs = true ∧ d.rs = some .data ∧ d.latched.isSome = true

/-- A data strobe is its bytes one after another (44_decoder R257). -/
theorem Dec.TakesData.pin_writeBytes {d : Dec} (h : d.TakesData) (p : Params) (bytes : List Byte) :
    d.pin p (.writeBytes bytes) = Dec.dataBytes p bytes d := by
  obtain ⟨herr, hcs, hrs, hlatched⟩ := h
  have hnone : d.latched.isNone = false := by
    rw [← Option.not_isSome, hlatched, Bool.not_true]
  simp [Dec.pin, Dec.writeBytes, Dec.dataStrobe, herr, hcs, hrs, hnone]

/-- Data bytes that raise no fault leave a decoder that takes more of them. -/
theorem Dec.TakesData.dataBytes {p : Params} {bytes : List Byte} {d d' : Dec} (h : d.TakesData)
    (hbytes : Dec.dataBytes p bytes d = (d', none)) : d'.TakesData := by
  induction bytes generalizing d with
  | nil =>
    obtain rfl : d = d' := (Prod.mk.inj hbytes).1
    exact h
  | cons b bytes ih =>
    obtain ⟨herr, hcs, hrs, hlatched⟩ := h
    unfold Dec.dataBytes at hbytes
    cases hp : d.partialByte with
    | none =>
      simp only [hp] at hbytes
      refine ih ?_ hbytes
      exact ⟨herr, hcs, hrs, hlatched⟩
    | some high =>
      obtain ⟨r, hr⟩ := Option.isSome_iff_exists.mp hlatched
      simp only [hp, Dec.dataWord, hr] at hbytes
      generalize hword : Dec.registerWord p r (high ++ b) _ = res at hbytes
      obtain ⟨d₁, _ | e⟩ := res
      · obtain ⟨herr₁, hlatched₁, -, -⟩ := Dec.registerWord_err hword
        have hlines := Dec.registerWord_lines p r (high ++ b)
          { d with partialByte := none, phase := .commandLatched }
        rw [hr, hword] at hlines
        obtain ⟨hrs₁, hcs₁⟩ := hlines
        exact ih ⟨herr₁.trans herr, hcs₁.trans hcs, hrs₁.trans hrs, by simp [hlatched₁]⟩ hbytes
      · cases hbytes

/-- Settles O49: a data strobe is its bytes one after another, and these pair up across strobes. -/
theorem dataStrobesPairByArrival : Obligations.DataStrobesPairByArrival := by
  intro p b b' d herr hcs hrs hlatched
  have htakes : d.TakesData := ⟨herr, hcs, hrs, hlatched⟩
  simp only [htakes.pin_writeBytes, Dec.dataBytes_append]
  refine ⟨fun d₁ hb => ?_, fun d₁ e hb => ?_, rfl⟩
  · rw [(htakes.dataBytes hb).pin_writeBytes, hb]
  · rw [hb]

/-! ## Data frames -/

/-- A Data frame with nothing latched faults at its strobe, with the chip still selected (44_decoder R258). -/
theorem Dec.pins_dataFrame_unlatched {d : Dec} (p : Params) (w : Word16) (herr : d.err = none)
    (hlatched : d.latched = none) :
    Dec.pins p (framing (.data w)) d =
      ({ d with rs := some .data, cs := true, err := some .dataWithoutCommand, phase := .faulted },
        some .dataWithoutCommand) := by
  simp [framing, Dec.pins, Dec.pin, Dec.writeBytes, Dec.dataStrobe, herr, hlatched]

/-- The decoder that the completed word of a Data frame finds (40_transport R147, 44_decoder R257). -/
def Dec.atDataWord (d : Dec) : Dec :=
  { d with rs := some .data, cs := true, partialByte := none, phase := .commandLatched }

/-- A Data frame whose completed word is taken (44_decoder R257, R260). -/
theorem exec_data_taken {s : State} {r : RegAddr} {d' : Dec} (w : Word16) (herr : s.dec.err = none)
    (hlatched : s.dec.latched = some r)
    (hword : s.dec.atDataWord.registerWord s.par r (s.dec.completed w) = (d', none)) :
    exec (.data w) s = .next { s with
      dec := { d' with cs := false, partialByte := (s.dec.afterData w).partialByte
                       phase := (s.dec.afterData w).phase }
      result := .none } := by
  rw [Dec.atDataWord] at hword
  simp [exec, execData, State.transaction, Dec.pins_dataFrame w herr hlatched, hword]

/-- A Data frame whose completed word raises a fault: the chip is not deselected any more (44_decoder R254,
60_exceptions R328). -/
theorem exec_data_raised {s : State} {r : RegAddr} {e : ProtocolError} (w : Word16)
    (herr : s.dec.err = none) (hlatched : s.dec.latched = some r)
    (hword : s.dec.atDataWord.registerWord s.par r (s.dec.completed w) = s.dec.atDataWord.raise e) :
    exec (.data w) s = .next { s with dec := (s.dec.atDataWord.raise e).1, result := .fault e } := by
  rw [Dec.atDataWord] at hword
  simp [exec, execData, State.transaction, Dec.pins_dataFrame w herr hlatched, hword, Dec.raise,
    Dec.pin_faulted, Dec.atDataWord]

/-- Settles O45: the frame completes one word, which goes to the register latched. -/
theorem dataFrameReachesLatchedRegister : Obligations.DataFrameReachesLatchedRegister := by
  intro w s hwf
  obtain ⟨hHS, hHE, hVS, hVE, hAX, hAY, -⟩ :=
    Dec.registerWord_setters hwf (s.dec.completed w) s.dec.atDataWord
  refine ⟨fun hfaulted => ?_, fun herr hlatched => ?_, fun herr => ⟨?_, ?_, ?_, ?_, ?_, ?_, ?_⟩⟩
  · simp [exec, execData, State.transaction, Dec.pins_faulted s.par _ hfaulted]
  · simp [exec, execData, State.transaction, Dec.pins_dataFrame_unlatched s.par w herr hlatched]
  · exact fun hlatched => exec_data_taken w herr hlatched hHS
  · exact fun hlatched => exec_data_taken w herr hlatched hHE
  · exact fun hlatched => exec_data_taken w herr hlatched hVS
  · exact fun hlatched => exec_data_taken w herr hlatched hVE
  · exact fun hlatched => exec_data_taken w herr hlatched hAX
  · exact fun hlatched => exec_data_taken w herr hlatched hAY
  · intro r hlatched hrecorded
    exact ⟨exec_data_taken w herr hlatched (Dec.registerWord_recorded hrecorded _ _),
      fun a => Memory.read_write _ _ a _⟩

/-- The addressing rule on each coordinate (40_transport R150). -/
theorem advance_nat_eq (w : Window Nat) (cx cy : Nat) :
    advance w cx cy =
      (if cx + 1 ≤ w.x2 then cx + 1 else w.x1,
       if cx + 1 ≤ w.x2 then cy else if cy + 1 ≤ w.y2 then cy + 1 else w.y1) := by
  unfold advance
  split_ifs <;> rfl

/-- Settles O46: the GRAM port checks the cursor twice, then writes its cell and advances. -/
theorem dataFrameWritesOnePixel : Obligations.DataFrameWritesOnePixel := by
  intro w s herr hlatched
  have hport := s.dec.atDataWord.registerWord_gram s.par (s.dec.completed w)
  rcases s.dec.atDataWord.gramWrite_cases s.par (s.dec.completed w) with
    ⟨hwin, hgram⟩ | ⟨hwin, hfb, hgram⟩ | ⟨hwin, hfb, hgram⟩
  · have hout := of_decide_eq_false hwin
    have hraised := exec_data_raised w herr hlatched (hport.trans hgram)
    exact ⟨fun _ => hraised, fun hin => absurd hin hout, fun hin => absurd hin hout⟩
  · have hin := of_decide_eq_true hwin
    have hout := of_decide_eq_false hfb
    have hraised := exec_data_raised w herr hlatched (hport.trans hgram)
    exact ⟨absurd hin, fun _ _ => hraised, fun _ hx hy => absurd ⟨hx, hy⟩ hout⟩
  · have hin := of_decide_eq_true hwin
    have hinside := of_decide_eq_true hfb
    refine ⟨absurd hin, fun _ hout => absurd hinside hout, fun _ hx _ => ?_⟩
    refine ⟨(s.dec.fbWrite s.par s.dec.cx s.dec.cy (s.dec.completed w)).fb, ?_, fun x y hx' _ =>
      Dec.fbWrite_cell _ s.dec hx hx'⟩
    have htaken := exec_data_taken w herr hlatched (hport.trans hgram)
    simp only [Dec.advanceCursor, advance_nat_eq] at htaken
    exact htaken

/-! ## Ill-formed fonts -/

/-- The data of a well-formed fixed font holds each character's columns (45_text R291). -/
theorem FixedFont.wf_data_length {f : FixedFont} (h : f.wf = true) :
    f.data.length = (f.lastChar.toNat - f.firstChar.toNat + 1) * f.cellWidth := by
  simp only [FixedFont.wf, Bool.and_eq_true, decide_eq_true_eq] at h
  exact h.2

/-- Every glyph of a well-formed proportional font lies in the bitmap (45_text R300). -/
theorem GfxFont.wf_glyph_le_bitmap {f : GfxFont} {g : GfxGlyph} (h : f.wf = true) (hg : g ∈ f.glyphs) :
    g.bitmapOffset + (g.width * g.height + 7) / 8 ≤ f.bitmap.length := by
  simp only [GfxFont.wf, Bool.and_eq_true, List.all_eq_true] at h
  have hglyph := h.2 g hg
  simp only [GfxGlyph.wf, Bool.and_eq_true, decide_eq_true_eq] at hglyph
  exact hglyph.2

/-- Settles O39: each of the two conditions makes its font ill-formed, which the meanings check first. -/
theorem textNeedsWellFormedFont : Obligations.TextNeedsWellFormedFont := by
  intro x y size ch c P s
  constructor
  · intro hlength
    have hill : ¬ s.par.fixedFont.wf = true := fun hwf => hlength (FixedFont.wf_data_length hwf)
    exact ⟨if_neg hill, if_neg hill⟩
  · rintro ⟨g, hg, hpast⟩
    have hill : ¬ s.par.gfxFont.wf = true := fun hwf =>
      absurd (GfxFont.wf_glyph_le_bitmap hwf hg) (Nat.not_le.mpr hpast)
    exact ⟨if_neg hill, if_neg hill⟩

end Sys2Proof.Machine
end

section
/-! SUPPORT. The encodings: the fields of a request word, one decoding equation for each opcode, and from
them the round trip, the blank fields, the frames and event tags, and the entry word. -/

namespace Sys2Proof.Machine

/-! ## The fields of a request word -/

theorem toNat_append_eq_add {m n : Nat} (x : BitVec m) (y : BitVec n) :
    (x ++ y).toNat = 2 ^ n * x.toNat + y.toNat := by
  rw [BitVec.toNat_append, ← Nat.shiftLeft_add_eq_or_of_lt y.isLt, Nat.shiftLeft_eq, Nat.mul_comm]

theorem extractLsb'_toNat_eq_div_mod {w : Nat} (x : BitVec w) (start len : Nat) :
    (x.extractLsb' start len).toNat = x.toNat / 2 ^ start % 2 ^ len := by
  rw [BitVec.extractLsb'_toNat, Nat.shiftRight_eq_div_pow]

section Fields
variable (op : BitVec 4) (a0 a1 a2 a3 a4 : BitVec 16)

/-- 30_encoding R100: the fields stand at bits 0, 4, 20, 36, 52 and 68. -/
theorem requestWord_toNat : (requestWord op a0 a1 a2 a3 a4).toNat =
    op.toNat + 2 ^ 4 * a0.toNat + 2 ^ 20 * a1.toNat + 2 ^ 36 * a2.toNat + 2 ^ 52 * a3.toNat +
      2 ^ 68 * a4.toNat := by
  simp only [requestWord, toNat_append_eq_add]
  ring

@[simp] theorem fieldOp_requestWord : fieldOp (requestWord op a0 a1 a2 a3 a4) = op := by
  rw [← BitVec.toNat_inj, fieldOp, extractLsb'_toNat_eq_div_mod, requestWord_toNat]
  omega

@[simp] theorem fieldA0_requestWord : fieldA0 (requestWord op a0 a1 a2 a3 a4) = a0 := by
  rw [← BitVec.toNat_inj, fieldA0, extractLsb'_toNat_eq_div_mod, requestWord_toNat]
  omega

@[simp] theorem fieldA1_requestWord : fieldA1 (requestWord op a0 a1 a2 a3 a4) = a1 := by
  rw [← BitVec.toNat_inj, fieldA1, extractLsb'_toNat_eq_div_mod, requestWord_toNat]
  omega

@[simp] theorem fieldA2_requestWord : fieldA2 (requestWord op a0 a1 a2 a3 a4) = a2 := by
  rw [← BitVec.toNat_inj, fieldA2, extractLsb'_toNat_eq_div_mod, requestWord_toNat]
  omega

@[simp] theorem fieldA3_requestWord : fieldA3 (requestWord op a0 a1 a2 a3 a4) = a3 := by
  rw [← BitVec.toNat_inj, fieldA3, extractLsb'_toNat_eq_div_mod, requestWord_toNat]
  omega

@[simp] theorem fieldA4_requestWord : fieldA4 (requestWord op a0 a1 a2 a3 a4) = a4 := by
  rw [← BitVec.toNat_inj, fieldA4, extractLsb'_toNat_eq_div_mod, requestWord_toNat]
  omega

@[simp] theorem requestWord_setWidth : (requestWord op a0 a1 a2 a3 a4).setWidth 4 = op :=
  (BitVec.setWidth_eq_extractLsb' (by decide)).trans (fieldOp_requestWord op a0 a1 a2 a3 a4)

theorem operandField_requestWord {k : Nat} (hk : k < 5) :
    operandField (requestWord op a0 a1 a2 a3 a4) k = [a0, a1, a2, a3, a4][k] := by
  interval_cases k
  · exact fieldA0_requestWord op a0 a1 a2 a3 a4
  · exact fieldA1_requestWord op a0 a1 a2 a3 a4
  · exact fieldA2_requestWord op a0 a1 a2 a3 a4
  · exact fieldA3_requestWord op a0 a1 a2 a3 a4
  · exact fieldA4_requestWord op a0 a1 a2 a3 a4

end Fields

/-- Every request word is the word of its own six fields. -/
theorem requestWord_fields (q : BitVec 84) :
    requestWord (fieldOp q) (fieldA0 q) (fieldA1 q) (fieldA2 q) (fieldA3 q) (fieldA4 q) = q := by
  rw [← BitVec.toNat_inj, requestWord_toNat]
  simp only [fieldOp, fieldA0, fieldA1, fieldA2, fieldA3, fieldA4, extractLsb'_toNat_eq_div_mod]
  omega

theorem exists_requestWord (q : BitVec 84) : ∃ op a0 a1 a2 a3 a4, requestWord op a0 a1 a2 a3 a4 = q :=
  ⟨_, _, _, _, _, _, requestWord_fields q⟩

/-- The case split over the sixteen opcodes, named as 30_encoding R101 names its rows. -/
theorem opcode_cases {motive : BitVec 4 → Prop} (reserved : motive 0x0#4) (init : motive 0x1#4)
    (setWindow : motive 0x2#4) (setRotation : motive 0x3#4) (setColorOrder : motive 0x4#4)
    (writeData16 : motive 0x5#4) (drawPixel : motive 0x6#4) (fillRect : motive 0x7#4) (drawLine : motive 0x8#4)
    (drawRect : motive 0x9#4) (drawCircle : motive 0xA#4) (fillCircle : motive 0xB#4)
    (drawCharFixed : motive 0xC#4) (drawStringFixed : motive 0xD#4) (drawCharGfx : motive 0xE#4)
    (drawStringGfx : motive 0xF#4) (op : BitVec 4) : motive op := by
  obtain ⟨⟨n, hn⟩⟩ := op
  interval_cases n
  exacts [reserved, init, setWindow, setRotation, setColorOrder, writeData16, drawPixel, fillRect, drawLine,
    drawRect, drawCircle, fillCircle, drawCharFixed, drawStringFixed, drawCharGfx, drawStringGfx]

/-! ## How each opcode decodes -/

section Rows
variable (a0 a1 a2 a3 a4 : BitVec 16) (P : List Byte)

theorem readChar_eq (a : BitVec 16) : readChar a = a.setWidth 8 :=
  (BitVec.setWidth_eq_extractLsb' (by decide)).symm

theorem readFlag_eq (a : BitVec 16) : readFlag a = decide (a ≠ 0) := by
  rw [Bool.eq_iff_iff, readFlag, bne_iff_ne, decide_eq_true_iff]
  rfl

@[simp] theorem decode_reserved : decode (.request (requestWord 0x0#4 a0 a1 a2 a3 a4) P) = .ok .reserved := by
  simp [decode, decodeRequest]

@[simp] theorem decode_init : decode (.request (requestWord 0x1#4 a0 a1 a2 a3 a4) P) =
    .ok (.init a0.toInt a1.toInt a2.toInt) := by
  simp [decode, decodeRequest, readSigned]

@[simp] theorem decode_setWindow : decode (.request (requestWord 0x2#4 a0 a1 a2 a3 a4) P) =
    .ok (.setWindow a0.toInt a1.toInt a2.toInt a3.toInt) := by
  simp [decode, decodeRequest, readSigned]

@[simp] theorem decode_setRotation : decode (.request (requestWord 0x3#4 a0 a1 a2 a3 a4) P) =
    .ok (.setRotation a0.toInt) := by
  simp [decode, decodeRequest, readSigned]

@[simp] theorem decode_setColorOrder : decode (.request (requestWord 0x4#4 a0 a1 a2 a3 a4) P) =
    .ok (.setColorOrder (decide (a0 ≠ 0))) := by
  simp [decode, decodeRequest, readFlag_eq]

@[simp] theorem decode_writeData16 : decode (.request (requestWord 0x5#4 a0 a1 a2 a3 a4) P) =
    .ok (.writeData16 a0) := by
  simp [decode, decodeRequest, readWord]

@[simp] theorem decode_drawPixel : decode (.request (requestWord 0x6#4 a0 a1 a2 a3 a4) P) =
    .ok (.drawPixel a0.toInt a1.toInt a2) := by
  simp [decode, decodeRequest, readSigned, readWord]

@[simp] theorem decode_fillRect : decode (.request (requestWord 0x7#4 a0 a1 a2 a3 a4) P) =
    .ok (.fillRect a0.toInt a1.toInt a2.toInt a3.toInt a4) := by
  simp [decode, decodeRequest, readSigned, readWord]

@[simp] theorem decode_drawLine : decode (.request (requestWord 0x8#4 a0 a1 a2 a3 a4) P) =
    .ok (.drawLine a0.toInt a1.toInt a2.toInt a3.toInt a4) := by
  simp [decode, decodeRequest, readSigned, readWord]

@[simp] theorem decode_drawRect : decode (.request (requestWord 0x9#4 a0 a1 a2 a3 a4) P) =
    .ok (.drawRect a0.toInt a1.toInt a2.toInt a3.toInt a4) := by
  simp [decode, decodeRequest, readSigned, readWord]

@[simp] theorem decode_drawCircle : decode (.request (requestWord 0xA#4 a0 a1 a2 a3 a4) P) =
    .ok (.drawCircle a0.toInt a1.toInt a2.toInt a3) := by
  simp [decode, decodeRequest, readSigned, readWord]

@[simp] theorem decode_fillCircle : decode (.request (requestWord 0xB#4 a0 a1 a2 a3 a4) P) =
    .ok (.fillCircle a0.toInt a1.toInt a2.toInt a3) := by
  simp [decode, decodeRequest, readSigned, readWord]

@[simp] theorem decode_drawCharFixed : decode (.request (requestWord 0xC#4 a0 a1 a2 a3 a4) P) =
    .ok (.drawCharFixed a0.toInt a1.toInt (a2.setWidth 8) a3 a4.toInt) := by
  simp [decode, decodeRequest, readSigned, readWord, readChar_eq]

@[simp] theorem decode_drawStringFixed : decode (.request (requestWord 0xD#4 a0 a1 a2 a3 a4) P) =
    if P.length ≤ 65535 then .ok (.drawStringFixed a0.toInt a1.toInt a2 a3.toInt P)
    else .error (.payloadTooLong P.length) := by
  simp [decode, decodeRequest, readSigned, readWord, fitsPayload]

@[simp] theorem decode_drawCharGfx : decode (.request (requestWord 0xE#4 a0 a1 a2 a3 a4) P) =
    .ok (.drawCharGfx a0.toInt a1.toInt (a2.setWidth 8) a3) := by
  simp [decode, decodeRequest, readSigned, readWord, readChar_eq]

@[simp] theorem decode_drawStringGfx : decode (.request (requestWord 0xF#4 a0 a1 a2 a3 a4) P) =
    if P.length ≤ 65535 then .ok (.drawStringGfx a0.toInt a1.toInt a2 P)
    else .error (.payloadTooLong P.length) := by
  simp [decode, decodeRequest, readSigned, readWord, fitsPayload]

end Rows

/-! ## Operands written and read back -/

@[simp] theorem fitsOperand_toInt (a : BitVec 16) : fitsOperand a.toInt = true := by
  have hlow := a.le_toInt
  have hhigh := a.toInt_lt
  simp only [fitsOperand, Bool.and_eq_true, decide_eq_true_eq]
  omega

theorem writeSigned_toInt {v : Int} (h : fitsOperand v = true) : (writeSigned v).toInt = v := by
  simp only [fitsOperand, Bool.and_eq_true, decide_eq_true_eq] at h
  exact BitVec.toInt_ofInt_eq_self (by decide) (by omega) (by omega)

theorem writeFlag_ne_zero (b : Bool) : decide (writeFlag b ≠ 0) = b := by cases b <;> rfl

theorem writeChar_setWidth (c : Byte) : (writeChar c).setWidth 8 = c :=
  (BitVec.setWidth_setWidth_of_le c (by decide)).trans (BitVec.setWidth_eq c)

/-! ## Frames and events -/

/-- 30_encoding R110: a frame whose number reaches 65536 has mode 1. -/
theorem frame_mode (t : BitVec 17) : t.getLsbD 16 = decide (65536 ≤ t.toNat) := t.getLsbD_last

theorem frame_highByte_eq_zero {t : BitVec 17} (h : t.toNat < 65536) :
    t.extractLsb' 8 8 = 0#8 ↔ t.toNat < 256 := by
  rw [← BitVec.toNat_inj, extractLsb'_toNat_eq_div_mod, BitVec.toNat_ofNat]
  omega

theorem decode_frame_cmd {t : BitVec 17} (h : t.toNat < 256) :
    decode (.frame t) = .ok (.cmd (BitVec.ofNat 8 t.toNat)) := by
  have hmode : ¬ t.getLsbD 16 = true := by rw [frame_mode, decide_eq_true_eq]; omega
  have hbyte := (frame_highByte_eq_zero (by omega)).mpr h
  rw [decode, decodeFrame, if_neg hmode, if_pos hbyte]
  rfl

theorem decode_frame_highByte {t : BitVec 17} (hlow : 256 ≤ t.toNat) (hhigh : t.toNat < 65536) :
    decode (.frame t) = .error (.commandFrameHighByte t) := by
  have hmode : ¬ t.getLsbD 16 = true := by rw [frame_mode, decide_eq_true_eq]; omega
  have hbyte := mt (frame_highByte_eq_zero hhigh).mp (by omega)
  rw [decode, decodeFrame, if_neg hmode, if_neg hbyte]

theorem decode_frame_data {t : BitVec 17} (h : 65536 ≤ t.toNat) :
    decode (.frame t) = .ok (.data (BitVec.ofNat 16 (t.toNat - 65536))) := by
  have hmode : t.getLsbD 16 = true := by rw [frame_mode]; exact decide_eq_true h
  have hword : t.extractLsb' 0 16 = BitVec.ofNat 16 (t.toNat - 65536) := by
    rw [← BitVec.toNat_inj, extractLsb'_toNat_eq_div_mod, BitVec.toNat_ofNat]
    omega
  rw [decode, decodeFrame, if_pos hmode, hword]

theorem decode_eventCmd (arg : Nat) : decode (.event 0b00 arg) =
    if arg < 256 then .ok (.eventCmd (BitVec.ofNat 8 arg)) else .error (.eventArgument 0b00 arg) := rfl

theorem decode_eventData (arg : Nat) : decode (.event 0b01 arg) =
    if arg < 65536 then .ok (.eventData (BitVec.ofNat 16 arg)) else .error (.eventArgument 0b01 arg) := rfl

theorem decode_eventDelay (arg : Nat) : decode (.event 0b10 arg) = .ok (.eventDelay arg) := rfl

theorem decode_eventReset (arg : Nat) : decode (.event 0b11 arg) =
    if arg = 0 then .ok .eventReset else .error (.eventArgument 0b11 arg) := rfl

/-- Settles O5: the ranges of a frame's number are its mode bit and its high byte. -/
theorem framesAndEventsDecoded : Obligations.FramesAndEventsDecoded := by
  refine ⟨fun t => ⟨decode_frame_cmd, decode_frame_highByte, decode_frame_data⟩, fun arg => ?_⟩
  refine ⟨fun h => (decode_eventCmd arg).trans (if_pos h),
    fun h => (decode_eventCmd arg).trans (if_neg (Nat.not_lt.mpr h)),
    fun h => (decode_eventData arg).trans (if_pos h),
    fun h => (decode_eventData arg).trans (if_neg (Nat.not_lt.mpr h)), decode_eventDelay arg,
    fun h => (decode_eventReset arg).trans (if_pos h),
    fun h => (decode_eventReset arg).trans (if_neg (Nat.pos_iff_ne_zero.mp h))⟩

/-! ## The round trip -/

/-- An instruction whose operands the encoding admits is the one its encoding decodes to. -/
theorem decode_encode {i : Instr} (h : i.wf = true) : decode (encode i) = .ok i := by
  cases i with
  | cmd reg =>
    have hnum : (reg.setWidth 17).toNat = reg.toNat := BitVec.toNat_setWidth_of_le (by decide)
    rw [encode, decode_frame_cmd (hnum ▸ reg.isLt), hnum, BitVec.ofNat_toNat, BitVec.setWidth_eq]
  | data word =>
    have hnum : (1#1 ++ word).toNat = 65536 + word.toNat := toNat_append_eq_add 1#1 word
    rw [encode, decode_frame_data (by omega), hnum, Nat.add_sub_cancel_left, BitVec.ofNat_toNat,
      BitVec.setWidth_eq]
  | eventCmd reg => rw [encode, decode_eventCmd, if_pos reg.isLt, BitVec.ofNat_toNat, BitVec.setWidth_eq]
  | eventData word => rw [encode, decode_eventData, if_pos word.isLt, BitVec.ofNat_toNat, BitVec.setWidth_eq]
  | eventDelay ms => exact decode_eventDelay ms
  | eventReset => exact decode_eventReset 0
  | reserved => exact decode_reserved ..
  | setColorOrder isRgb => exact (decode_setColorOrder ..).trans (by rw [writeFlag_ne_zero])
  | writeData16 word => exact decode_writeData16 ..
  | init | setWindow | setRotation | drawPixel | fillRect | drawLine | drawRect | drawCircle | fillCircle =>
    simp only [Instr.wf, Bool.and_eq_true] at h
    simp [encode, writeSigned_toInt, h]
  | drawCharFixed | drawCharGfx =>
    simp only [Instr.wf, Bool.and_eq_true] at h
    simp [encode, writeSigned_toInt, writeChar_setWidth, h]
  | drawStringFixed | drawStringGfx =>
    simp only [Instr.wf, fitsPayload, Bool.and_eq_true, decide_eq_true_eq] at h
    simp [encode, writeSigned_toInt, h]

/-- A signed operand is read from 16 bits, and only the two string rows take the payload, after its check. -/
theorem decode_request_wf {q : BitVec 84} {P : List Byte} {i : Instr} (h : decode (.request q P) = .ok i) :
    i.wf = true := by
  obtain ⟨op, a0, a1, a2, a3, a4, rfl⟩ := exists_requestWord q
  cases op using opcode_cases with
  | drawStringFixed | drawStringGfx =>
    simp only [decode_drawStringFixed, decode_drawStringGfx] at h
    split at h
    next hP =>
      cases h
      simp [Instr.wf, fitsPayload, hP]
    next => cases h
  | _ =>
    simp at h
    subst h
    simp [Instr.wf]

theorem decode_wf {w : PortWord} {i : Instr} (h : decode w = .ok i) : i.wf = true := by
  cases w with
  | request q P => exact decode_request_wf h
  | frame t =>
    simp only [decode, decodeFrame] at h
    split_ifs at h
    all_goals cases h; rfl
  | event tag arg =>
    simp only [decode, decodeEvent] at h
    split at h
    · split_ifs at h; cases h; rfl
    · split_ifs at h; cases h; rfl
    · cases h; rfl
    · split_ifs at h; cases h; rfl

/-- Settles O1: each row's equation on the operands as the encoder writes them, and back from a port word. -/
theorem decodeEncodeRoundTrip : Obligations.DecodeEncodeRoundTrip :=
  ⟨fun _ => decode_encode, fun _ _ => decode_wf⟩

/-! ## Opcodes and fields -/

/-- Settles O2: every word is the word of its fields, and each of the sixteen opcodes has its equation. -/
theorem requestDecodedByOpcodeAlone : Obligations.RequestDecodedByOpcodeAlone := by
  intro q P hP
  obtain ⟨op, a0, a1, a2, a3, a4, rfl⟩ := exists_requestWord q
  rw [requestWord_setWidth]
  cases op using opcode_cases with
  | drawStringFixed => exact ⟨_, (decode_drawStringFixed ..).trans (if_pos hP), rfl⟩
  | drawStringGfx => exact ⟨_, (decode_drawStringGfx ..).trans (if_pos hP), rfl⟩
  | reserved => exact ⟨_, decode_reserved .., rfl⟩
  | init => exact ⟨_, decode_init .., rfl⟩
  | setWindow => exact ⟨_, decode_setWindow .., rfl⟩
  | setRotation => exact ⟨_, decode_setRotation .., rfl⟩
  | setColorOrder => exact ⟨_, decode_setColorOrder .., rfl⟩
  | writeData16 => exact ⟨_, decode_writeData16 .., rfl⟩
  | drawPixel => exact ⟨_, decode_drawPixel .., rfl⟩
  | fillRect => exact ⟨_, decode_fillRect .., rfl⟩
  | drawLine => exact ⟨_, decode_drawLine .., rfl⟩
  | drawRect => exact ⟨_, decode_drawRect .., rfl⟩
  | drawCircle => exact ⟨_, decode_drawCircle .., rfl⟩
  | fillCircle => exact ⟨_, decode_fillCircle .., rfl⟩
  | drawCharFixed => exact ⟨_, decode_drawCharFixed .., rfl⟩
  | drawCharGfx => exact ⟨_, decode_drawCharGfx .., rfl⟩

/-- 30_encoding R103: the equation of an opcode mentions the first `operandCount` fields alone. -/
theorem decode_request_congr {op : BitVec 4} {a0 a1 a2 a3 a4 b0 b1 b2 b3 b4 : BitVec 16} (P : List Byte)
    (h : [a0, a1, a2, a3, a4].take (operandCount op) = [b0, b1, b2, b3, b4].take (operandCount op)) :
    decode (.request (requestWord op a0 a1 a2 a3 a4) P) =
      decode (.request (requestWord op b0 b1 b2 b3 b4) P) := by
  cases op using opcode_cases
  all_goals
    simp [operandCount] at h
    simp [h]

theorem operandFields_take {n : Nat} {op : BitVec 4} {a0 a1 a2 a3 a4 b0 b1 b2 b3 b4 : BitVec 16}
    (h : ∀ k, k < n → operandField (requestWord op a0 a1 a2 a3 a4) k =
      operandField (requestWord op b0 b1 b2 b3 b4) k) :
    [a0, a1, a2, a3, a4].take n = [b0, b1, b2, b3, b4].take n := by
  refine List.ext_getElem (by simp) fun k hk _ => ?_
  have hk' : k < n ∧ k < 5 := by simpa using hk
  have hfield := h k hk'.1
  rw [operandField_requestWord _ _ _ _ _ _ hk'.2, operandField_requestWord _ _ _ _ _ _ hk'.2] at hfield
  rw [List.getElem_take, List.getElem_take]
  exact hfield

/-- The encoder writes the row's operands first and zero in every field after them. -/
theorem encode_request_blank {i : Instr} {q : BitVec 84} {P : List Byte} (h : encode i = .request q P) :
    ∃ op a0 a1 a2 a3 a4, requestWord op a0 a1 a2 a3 a4 = q ∧
      ∀ a ∈ [a0, a1, a2, a3, a4].drop (operandCount op), a = 0 := by
  cases i with
  | cmd | data | eventCmd | eventData | eventDelay | eventReset => cases h
  | _ =>
    obtain ⟨rfl, rfl⟩ := h
    exact ⟨_, _, _, _, _, _, rfl, by simp [operandCount]⟩

/-- Settles O3: equal used fields give one equation, and the encoder's words have zero after them. -/
theorem blankFieldsIgnored : Obligations.BlankFieldsIgnored := by
  constructor
  · intro q q' P hop hused
    obtain ⟨op, a0, a1, a2, a3, a4, rfl⟩ := exists_requestWord q
    obtain ⟨op', b0, b1, b2, b3, b4, rfl⟩ := exists_requestWord q'
    simp only [requestWord_setWidth] at hop hused
    subst hop
    exact decode_request_congr P (operandFields_take hused)
  · intro i q P henc k hblank hk
    obtain ⟨op, a0, a1, a2, a3, a4, rfl, hzero⟩ := encode_request_blank henc
    rw [requestWord_setWidth] at hblank
    rw [operandField_requestWord _ _ _ _ _ _ hk]
    refine hzero _ (List.mem_iff_getElem.mpr ⟨k - operandCount op, ?_, ?_⟩)
    · simp; omega
    · simp [List.getElem_drop, Nat.add_sub_cancel' hblank]

/-- Settles O4: the word's number, and the equation of each opcode. -/
theorem operandsReadByName : Obligations.OperandsReadByName := by
  intro a0 a1 a2 a3 a4 P
  refine ⟨fun op => requestWord_toNat op a0 a1 a2 a3 a4, decode_reserved .., decode_init ..,
    decode_setWindow .., decode_setRotation .., decode_setColorOrder .., decode_writeData16 ..,
    decode_drawPixel .., decode_fillRect .., decode_drawLine .., decode_drawRect .., decode_drawCircle ..,
    decode_fillCircle .., decode_drawCharFixed .., fun hP => ?_, fun hP => ?_, decode_drawCharGfx ..,
    fun hP => ?_, fun hP => ?_⟩
  · exact (decode_drawStringFixed ..).trans (if_pos hP)
  · exact (decode_drawStringFixed ..).trans (if_neg (Nat.not_le.mpr hP))
  · exact (decode_drawStringGfx ..).trans (if_pos hP)
  · exact (decode_drawStringGfx ..).trans (if_neg (Nat.not_le.mpr hP))

/-- Settles O6: seven closed words, decoded by evaluation. -/
theorem writtenWordsDecode : Obligations.WrittenWordsDecode := by
  unfold Obligations.WrittenWordsDecode
  decide

/-! ## The entry word -/

theorem bitAt_getLsbD {position : Nat} (b : Bool) (k : Nat) (h : position ≤ 15) :
    (bitAt b position).getLsbD k = true ↔ k = position ∧ b = true := by
  cases b with
  | false => simp [bitAt]
  | true =>
    simp only [bitAt, if_true, and_true, BitVec.getLsbD_shiftLeft, BitVec.getLsbD_one, Bool.and_eq_true,
      Bool.not_eq_true', decide_eq_true_eq, decide_eq_false_iff_not]
    omega

/-- 00_scope R8: the four entry bit positions are distinct and stand in 0..15. -/
theorem Params.entryBitsWf_iff {p : Params} : p.entryBitsWf = true ↔
    (p.entryOrdBit ≠ p.entryId1Bit ∧ p.entryOrdBit ≠ p.entryId0Bit ∧ p.entryOrdBit ≠ p.entryAmBit ∧
      p.entryId1Bit ≠ p.entryId0Bit ∧ p.entryId1Bit ≠ p.entryAmBit ∧ p.entryId0Bit ≠ p.entryAmBit) ∧
    p.entryOrdBit ≤ 15 ∧ p.entryId1Bit ≤ 15 ∧ p.entryId0Bit ≤ 15 ∧ p.entryAmBit ≤ 15 := by
  simp [Params.entryBitsWf, and_assoc]

theorem Params.entryWord_getLsbD {p : Params} (h : p.entryBitsWf = true) (rot : BitVec 3) (ord : ColorOrder)
    (k : Nat) : (p.entryWord rot ord).getLsbD k = true ↔
      (k = p.entryOrdBit ∧ ord = .bgr) ∨ (k = p.entryId1Bit ∧ (p.entryFields rot).id1 = true) ∨
      (k = p.entryId0Bit ∧ (p.entryFields rot).id0 = true) ∨
      (k = p.entryAmBit ∧ (p.entryFields rot).am = true) := by
  obtain ⟨-, hord, hid1, hid0, ham⟩ := Params.entryBitsWf_iff.mp h
  simp only [Params.entryWord, BitVec.getLsbD_or, Bool.or_eq_true, bitAt_getLsbD _ _ hord,
    bitAt_getLsbD _ _ hid1, bitAt_getLsbD _ _ hid0, bitAt_getLsbD _ _ ham, beq_iff_eq, or_assoc]

/-- Distinct positions: each of the four bits is its own field's. -/
theorem Params.entryWord_fields {p : Params} (h : p.entryBitsWf = true) (rot : BitVec 3) (ord : ColorOrder) :
    (p.entryWord rot ord).getLsbD p.entryOrdBit = (ord == .bgr) ∧
    (p.entryWord rot ord).getLsbD p.entryId1Bit = (p.entryFields rot).id1 ∧
    (p.entryWord rot ord).getLsbD p.entryId0Bit = (p.entryFields rot).id0 ∧
    (p.entryWord rot ord).getLsbD p.entryAmBit = (p.entryFields rot).am := by
  obtain ⟨hdistinct, -⟩ := Params.entryBitsWf_iff.mp h
  refine ⟨?_, ?_, ?_, ?_⟩
  all_goals
    rw [Bool.eq_iff_iff, Params.entryWord_getLsbD h]
    grind

theorem Params.ordOf_entryWord {p : Params} (h : p.entryBitsWf = true) (rot : BitVec 3) (ord : ColorOrder) :
    p.ordOf (p.entryWord rot ord) = ord := by
  rw [Params.ordOf, (Params.entryWord_fields h rot ord).1]
  cases ord <;> rfl

theorem mem_rotations (rot : BitVec 3) : rot ∈ (List.range 8).map (BitVec.ofNat 3) := by
  revert rot; decide

theorem Params.entryInjective_iff {p : Params} :
    p.entryInjective = true ↔ ∀ a b, p.entryFields a = p.entryFields b → a = b := decide_eq_true_iff

/-- 30_encoding R125: under an injective table the search over the rotations finds the only one there is. -/
theorem Params.rotationOf_eq_some_iff {p : Params}
    (hinj : ∀ a b, p.entryFields a = p.entryFields b → a = b) (w : Word16) (rot : BitVec 3) :
    p.rotationOf w = some rot ↔
      p.entryFields rot = ⟨w.getLsbD p.entryId1Bit, w.getLsbD p.entryId0Bit, w.getLsbD p.entryAmBit⟩ := by
  rw [Params.rotationOf, if_pos (Params.entryInjective_iff.mpr hinj)]
  constructor
  · intro hfound
    simpa using List.find?_some hfound
  · intro hfields
    rw [← hfields]
    have hsome := (List.find?_isSome (p := fun r => p.entryFields r == p.entryFields rot)).mpr
      ⟨rot, mem_rotations rot, beq_self_eq_true _⟩
    obtain ⟨found, hfound⟩ := Option.isSome_iff_exists.mp hsome
    have hsame : p.entryFields found = p.entryFields rot := by simpa using List.find?_some hfound
    rw [hfound, hinj found rot hsame]

theorem Params.rotationOf_eq_none {p : Params} (h : ∃ a b, a ≠ b ∧ p.entryFields a = p.entryFields b)
    (w : Word16) : p.rotationOf w = none := by
  obtain ⟨a, b, hne, hfields⟩ := h
  exact if_neg fun hinj => hne (Params.entryInjective_iff.mp hinj a b hfields)

theorem Params.rotationOf_entryWord {p : Params} (h : p.entryBitsWf = true)
    (hinj : ∀ a b, p.entryFields a = p.entryFields b → a = b) (rot : BitVec 3) (ord : ColorOrder) :
    p.rotationOf (p.entryWord rot ord) = some rot := by
  obtain ⟨-, hid1, hid0, ham⟩ := Params.entryWord_fields h rot ord
  rw [Params.rotationOf_eq_some_iff hinj, hid1, hid0, ham]

theorem defaultParams_entryFields_injective (a b : BitVec 3)
    (h : defaultParams.entryFields a = defaultParams.entryFields b) : a = b := by
  revert a b; decide

/-- Settles O7: the bits of the word one by one, from which the two observations read it back. -/
theorem entryWordBits : Obligations.EntryWordBits := by
  refine ⟨fun p rot ord h => ?_, fun p w => ?_, defaultParams_entryFields_injective, rfl, rfl, rfl, rfl⟩
  · exact ⟨Params.entryWord_getLsbD h rot ord, Params.ordOf_entryWord h rot ord,
      fun hinj => Params.rotationOf_entryWord h hinj rot ord⟩
  · exact ⟨rfl, fun hinj => Params.rotationOf_eq_some_iff hinj w, fun h => Params.rotationOf_eq_none h w⟩

end Sys2Proof.Machine
end

section
/-! SUPPORT. The pin sequences of the events, and the transport that carries them: its turn through the
step, and the wire carried to its end. -/

namespace Sys2Proof.Machine

/-! ## Framing -/

/-- The two bytes of a data word as numbers, high byte first (20_memory R78, 40_transport R147). -/
theorem framing_data_bytes (w : Word16) :
    framing (.data w) = [.selectMode .data, .selectChip true,
      .writeBytes [BitVec.ofNat 8 (w.toNat / 256), BitVec.ofNat 8 (w.toNat % 256)], .selectChip false] := by
  have hhigh : w.extractLsb' 8 8 = BitVec.ofNat 8 (w.toNat / 256) :=
    BitVec.eq_of_toNat_eq (by simp [Nat.shiftRight_eq_div_pow])
  have hlow : w.extractLsb' 0 8 = BitVec.ofNat 8 (w.toNat % 256) :=
    BitVec.eq_of_toNat_eq (by simp)
  rw [framing, hhigh, hlow]

/-- An event row of the opcode table gives its event to the transport (log 8). -/
theorem exec_event (s : State) :
    (∀ r, exec (.eventCmd r) s = .next (s.carry (.cmd r))) ∧
    (∀ w, exec (.eventData w) s = .next (s.carry (.data w))) ∧
    (∀ ms, exec (.eventDelay ms) s = .next (s.carry (.delay ms))) ∧
    exec .eventReset s = .next (s.carry .reset) :=
  ⟨fun _ => rfl, fun _ => rfl, fun _ => rfl, rfl⟩

/-- Settles O43: each event row carries its event, whose pin sequence is its framing. -/
theorem eventsAreFramedOnTheWire : Obligations.EventsAreFramedOnTheWire := by
  intro r w ms s
  obtain ⟨hcmd, hdata, hdelay, hreset⟩ := exec_event s
  refine ⟨hcmd r, ?_, hdelay ms, hreset, rfl, framing_data_bytes w⟩
  rw [hdata, State.carry, framing_data_bytes]

/-! ## The transport's turn -/

/-- The step is a turn of the transport when nothing is presented, when a turn is scheduled, and while a
requester waits (log 6, log 7). -/
theorem step_transport {s : State} {rest : List Input} (hwf : s.par.wf = true)
    (hin : s.inputs = [] ∧ rest = [] ∨ s.inputs = .transport :: rest ∨
      s.inputs = rest ∧ s.enc.ready = false ∧ ∃ more, rest = .awaitReady :: more) :
    step s = .next (State.transportTurn { s with inputs := rest }) := by
  rcases hin with ⟨hin, rfl⟩ | hin | ⟨hin, hbusy, more, rfl⟩
  · have hsame : ({ s with inputs := [] } : State) = s := by rw [← hin]
    simp [step, State.turn, hwf, hin, hsame]
  · simp [step, State.turn, hwf, hin, State.takeInput]
  · simp [step, State.turn, hwf, hin, State.takeInput, hbusy]

/-! ## The wire carried to its end -/

theorem State.settle_nil {s : State} (hw : s.wire = []) : s.settle = s := by
  rw [State.settle, hw, List.length_nil, Function.iterate_zero_apply]

theorem State.settle_cons {s : State} {a : PinAction} {more : List PinAction} (hw : s.wire = a :: more) :
    s.settle = s.transportTurn.settle := by
  have hturn : s.transportTurn.wire = more := by rw [State.transportTurn_carries hw]
  rw [State.settle, State.settle, hw, hturn, List.length_cons, Function.iterate_succ_apply]

/-- The wire carried to its end, when the request waits for nothing beyond it: the decoder has taken the pin
actions in order and `E.ready` is 1 (40_transport R149, R153). -/
theorem State.settle_eq {s : State} (hne : s.wire ≠ []) (howed : s.owed ≤ s.wire.length) :
    ∃ r, s.settle = { s with
      dec := (Dec.pins s.par s.wire s.dec).1, wire := [], owed := 0, result := r
      enc := { s.enc with ready := true } } := by
  generalize hw : s.wire = wire at hne howed
  induction wire generalizing s with
  | nil => exact absurd rfl hne
  | cons a more ih =>
    rw [State.settle_cons hw, State.transportTurn_carries hw]
    rw [List.length_cons] at howed
    cases more with
    | nil =>
      have hlast : s.owed ≤ 1 := howed
      refine ⟨signalled (s.dec.pin s.par a).2, ?_⟩
      rw [State.settle_nil rfl]
      simp [Dec.pins_cons, hlast]
    | cons b more =>
      exact ih rfl (by simp) (Nat.sub_le_iff_le_add.mpr howed)

/-- Settles O10: the step is the transport's turn, and turns are taken until the wire is empty. -/
theorem transportCarriesTheWireInOrder : Obligations.TransportCarriesTheWireInOrder := by
  refine ⟨fun s rest hwf hin => ⟨fun hw => ?_, fun a more hw => ?_⟩, fun s => State.settle_eq⟩
  · rw [step_transport hwf hin, State.transportTurn_idle (s := { s with inputs := rest }) hw]
  · rw [step_transport hwf hin, State.transportTurn_carries (s := { s with inputs := rest }) hw]

end Sys2Proof.Machine
end

section
/-! SUPPORT. The addressing rule over a whole window: the cursor after a number of advances, and the cells it
visits by their row-major numbers. -/

namespace Sys2Proof.Machine

/-! ## The window as a grid -/

/-- How many columns a window has. -/
def windowCols (w : Window Int) : Nat := (w.x2 - w.x1 + 1).toNat

/-- How many rows a window has. -/
def windowRows (w : Window Int) : Nat := (w.y2 - w.y1 + 1).toNat

/-- The cursor after `n` advances from the window's origin (40_transport R150). -/
def cursorAfter (w : Window Int) (n : Nat) : Int × Int :=
  (fun c : Int × Int => advance w c.1 c.2)^[n] (w.x1, w.y1)

@[simp] theorem cursorAfter_zero (w : Window Int) : cursorAfter w 0 = (w.x1, w.y1) := rfl

theorem cursorAfter_succ (w : Window Int) (n : Nat) :
    cursorAfter w (n + 1) = advance w (cursorAfter w n).1 (cursorAfter w n).2 :=
  Function.iterate_succ_apply' _ _ _

/-- The cursor never leaves a window with ordered corners (40_transport R150). -/
theorem cursorAfter_mem {w : Window Int} (hx : w.x1 ≤ w.x2) (hy : w.y1 ≤ w.y2) (n : Nat) :
    w.x1 ≤ (cursorAfter w n).1 ∧ (cursorAfter w n).1 ≤ w.x2 ∧
      w.y1 ≤ (cursorAfter w n).2 ∧ (cursorAfter w n).2 ≤ w.y2 := by
  induction n with
  | zero => exact ⟨le_refl _, hx, le_refl _, hy⟩
  | succ n ih =>
    obtain ⟨hx1, hx2, hy1, hy2⟩ := ih
    rw [cursorAfter_succ]
    exact advance_mem hx1 hx2 hy1 hy2

/-! ## The three branches of the addressing rule -/

theorem advance_nextColumn {w : Window Int} {cx : Int} (cy : Int) (h : cx + 1 ≤ w.x2) :
    advance w cx cy = (cx + 1, cy) := if_pos h

theorem advance_nextRow {w : Window Int} {cx cy : Int} (hx : w.x2 < cx + 1) (hy : cy + 1 ≤ w.y2) :
    advance w cx cy = (w.x1, cy + 1) := by
  rw [advance, if_neg (not_le.mpr hx), if_pos hy]

theorem advance_origin {w : Window Int} {cx cy : Int} (hx : w.x2 < cx + 1) (hy : w.y2 < cy + 1) :
    advance w cx cy = (w.x1, w.y1) := by
  rw [advance, if_neg (not_le.mpr hx), if_neg (not_le.mpr hy)]

/-! ## Row by row -/

/-- From the start of a row the cursor goes along it. -/
theorem cursorAfter_alongRow {w : Window Int} {n c : Nat} {y : Int} (hrow : cursorAfter w n = (w.x1, y))
    (hc : c < windowCols w) : cursorAfter w (n + c) = (w.x1 + c, y) := by
  induction c with
  | zero => simpa using hrow
  | succ c ih =>
    have hnext : w.x1 + c + 1 ≤ w.x2 := by
      simp only [windowCols] at hc
      omega
    rw [← Nat.add_assoc, cursorAfter_succ, ih (Nat.lt_of_succ_lt hc), advance_nextColumn y hnext]
    simp [add_assoc]

/-- After as many advances as the first `r` rows have cells the cursor is at the start of row `r`. -/
theorem cursorAfter_rowStart {w : Window Int} {r : Nat} (hcols : 0 < windowCols w) (hr : r < windowRows w) :
    cursorAfter w (windowCols w * r) = (w.x1, w.y1 + r) := by
  induction r with
  | zero => simp
  | succ r ih =>
    have hend := cursorAfter_alongRow (ih (Nat.lt_of_succ_lt hr)) (Nat.sub_one_lt_of_lt hcols)
    have hlast : w.x2 < w.x1 + (windowCols w - 1 : Nat) + 1 := by
      simp only [windowCols] at hcols ⊢
      omega
    have hnext : w.y1 + r + 1 ≤ w.y2 := by
      simp only [windowRows] at hr
      omega
    have hcount : windowCols w * (r + 1) = windowCols w * r + (windowCols w - 1) + 1 := by
      rw [Nat.mul_succ]
      omega
    rw [hcount, cursorAfter_succ, hend, advance_nextRow hlast hnext]
    simp [add_assoc]

/-- The cursor on column `c` of row `r`. -/
theorem cursorAfter_grid {w : Window Int} {r c : Nat} (hr : r < windowRows w) (hc : c < windowCols w) :
    cursorAfter w (windowCols w * r + c) = (w.x1 + c, w.y1 + r) :=
  cursorAfter_alongRow (cursorAfter_rowStart (Nat.zero_lt_of_lt hc) hr) hc

/-- Fewer advances than the window has cells visit them row by row (40_transport R151). -/
theorem cursorAfter_of_lt {w : Window Int} {n : Nat} (hn : n < windowCols w * windowRows w) :
    cursorAfter w n = (w.x1 + (n % windowCols w : Nat), w.y1 + (n / windowCols w : Nat)) := by
  have hcols : 0 < windowCols w := Nat.pos_of_lt_mul_right hn
  have hgrid := cursorAfter_grid (Nat.div_lt_of_lt_mul hn) (Nat.mod_lt n hcols)
  rwa [Nat.div_add_mod] at hgrid

/-- As many advances as the window has cells bring the cursor back (40_transport R151). -/
theorem cursorAfter_cells {w : Window Int} (hx : w.x1 ≤ w.x2) (hy : w.y1 ≤ w.y2) :
    cursorAfter w (windowCols w * windowRows w) = (w.x1, w.y1) := by
  obtain ⟨c, hc⟩ : ∃ c, windowCols w = c + 1 := ⟨(w.x2 - w.x1).toNat, by simp only [windowCols]; omega⟩
  obtain ⟨r, hr⟩ : ∃ r, windowRows w = r + 1 := ⟨(w.y2 - w.y1).toNat, by simp only [windowRows]; omega⟩
  have hend : cursorAfter w (windowCols w * r + c) = (w.x1 + c, w.y1 + r) :=
    cursorAfter_grid (by omega) (by omega)
  have hcount : windowCols w * windowRows w = windowCols w * r + c + 1 := by
    rw [hr, Nat.mul_succ, hc, Nat.add_assoc]
  rw [hcount, cursorAfter_succ, hend]
  simp only [windowCols] at hc
  simp only [windowRows] at hr
  exact advance_origin (by omega) (by omega)

/-- Settles O24: row by row, and after the last cell back to the origin. -/
theorem cursorFillsTheWindowRowMajor : Obligations.CursorFillsTheWindowRowMajor := by
  intro w n hx hy
  refine ⟨fun hn => cursorAfter_of_lt hn, fun hn => ?_⟩
  rw [hn]
  exact cursorAfter_cells hx hy

/-! ## The number of a cell -/

/-- The cell lies in the window. -/
def windowHas (w : Window Int) (x y : Nat) : Prop := w.x1 ≤ x ∧ x ≤ w.x2 ∧ w.y1 ≤ y ∧ y ≤ w.y2

/-- The row-major number of a cell in a window. -/
def cellNumber (w : Window Int) (x y : Nat) : Nat := (y - w.y1.toNat) * windowCols w + (x - w.x1.toNat)

/-- The corners of the window are ordered and lie in the framebuffer. -/
def windowInFramebuffer (p : Params) (w : Window Int) : Prop :=
  0 ≤ w.x1 ∧ w.x1 ≤ w.x2 ∧ w.x2 < p.fbW ∧ 0 ≤ w.y1 ∧ w.y1 ≤ w.y2 ∧ w.y2 < p.fbH

/-- Where a cell of the window stands in it: its column and row, and its number. -/
theorem windowHas.column_row {w : Window Int} {x y : Nat} (h : windowHas w x y) (hx : 0 ≤ w.x1)
    (hy : 0 ≤ w.y1) :
    x - w.x1.toNat < windowCols w ∧ y - w.y1.toNat < windowRows w ∧
      (x : Int) = w.x1 + (x - w.x1.toNat : Nat) ∧ (y : Int) = w.y1 + (y - w.y1.toNat : Nat) := by
  simp only [windowHas] at h
  simp only [windowCols, windowRows]
  omega

theorem cellNumber_lt {w : Window Int} {x y : Nat} (h : windowHas w x y) (hx : 0 ≤ w.x1) (hy : 0 ≤ w.y1) :
    cellNumber w x y < windowCols w * windowRows w := by
  obtain ⟨hcol, hrow, -, -⟩ := h.column_row hx hy
  calc cellNumber w x y < (y - w.y1.toNat) * windowCols w + windowCols w := Nat.add_lt_add_left hcol _
    _ = windowCols w * (y - w.y1.toNat + 1) := by ring
    _ ≤ windowCols w * windowRows w := Nat.mul_le_mul_left _ hrow

/-- Below the number of cells, the cursor stands on a cell of the window after exactly as many advances as
the cell's number. -/
theorem cursorAfter_eq_iff {w : Window Int} {x y n : Nat} (h : windowHas w x y) (hx : 0 ≤ w.x1)
    (hy : 0 ≤ w.y1) (hn : n < windowCols w * windowRows w) :
    cursorAfter w n = ((x : Int), (y : Int)) ↔ n = cellNumber w x y := by
  obtain ⟨hcol, hrow, hxeq, hyeq⟩ := h.column_row hx hy
  constructor
  · intro hcursor
    rw [cursorAfter_of_lt hn] at hcursor
    obtain ⟨hmod, hdiv⟩ := Prod.mk.inj hcursor
    have hmod : n % windowCols w = x - w.x1.toNat := by omega
    have hdiv : n / windowCols w = y - w.y1.toNat := by omega
    rw [cellNumber, ← hmod, ← hdiv, Nat.div_add_mod']
  · rintro rfl
    rw [cellNumber, Nat.mul_comm, cursorAfter_grid hrow hcol, ← hxeq, ← hyeq]

/-- The cursor of a window is never on a cell outside it. -/
theorem cursorAfter_ne_outside {w : Window Int} {x y : Nat} (hx : w.x1 ≤ w.x2) (hy : w.y1 ≤ w.y2)
    (h : ¬ windowHas w x y) (n : Nat) : cursorAfter w n ≠ ((x : Int), (y : Int)) := by
  intro hcursor
  have hmem := cursorAfter_mem hx hy n
  rw [hcursor] at hmem
  exact h hmem

end Sys2Proof.Machine
end

section
/-! SUPPORT. Requests carried to their end: what the pin sequences of a window and of a GRAM word do to the
decoder, and the stream of words that fills a window. -/

namespace Sys2Proof.Machine

/-! ## Register writes at the decoder -/

/-- Two pin sequences that raise no fault, one after the other. -/
theorem Dec.pins_append_quiet {p : Params} {l l' : List PinAction} {d d₁ d₂ : Dec}
    (h : Dec.pins p l d = (d₁, none)) (h' : Dec.pins p l' d₁ = (d₂, none)) :
    Dec.pins p (l ++ l') d = (d₂, none) := by
  rw [Dec.pins_append, h, h']
  rfl

/-- The pin sequence of a data word that is taken, with no byte pending before it (40_transport R147). -/
theorem Dec.pins_data_taken {p : Params} {r : RegAddr} {w : Word16} {d d' : Dec} (herr : d.err = none)
    (hlatched : d.latched = some r) (hpartial : d.partialByte = none)
    (hword : d.atDataWord.registerWord p r w = (d', none)) :
    Dec.pins p (framing (.data w)) d = ({ d' with cs := false }, none) := by
  obtain ⟨herr', -, -, -⟩ := Dec.registerWord_err hword
  have hquiet : d'.err = none := herr'.trans herr
  rw [Dec.atDataWord] at hword
  rw [Dec.pins_data w herr hlatched hpartial, hword]
  simp [Dec.pin, hquiet]

/-- The decoder after a command to register `r` (40_transport R146). -/
def Dec.commanded (r : RegAddr) (d : Dec) : Dec :=
  { d with rs := some .cmd, cs := false, latched := some r, partialByte := none, phase := .commandLatched }

/-- The pin sequence of a register write that is taken (40_transport R144). -/
theorem Dec.pins_writeReg {p : Params} {r : RegAddr} {v : Word16} {d d' : Dec} (herr : d.err = none)
    (hr : r ∈ p.roles) (hword : (d.commanded r).atDataWord.registerWord p r v = (d', none)) :
    Dec.pins p (framing (.cmd r) ++ framing (.data v)) d = ({ d' with cs := false }, none) :=
  have hdata : Dec.pins p (framing (.data v)) (d.commanded r) = ({ d' with cs := false }, none) :=
    Dec.pins_data_taken herr rfl rfl hword
  Dec.pins_append_quiet (Dec.pins_cmd herr (Params.mapped_of_mem_roles hr)) hdata

/-- Everything the pin sequences of a window do to a decoder without a fault (41_encoder_config R182,
44_decoder R262, R263). -/
theorem Dec.pins_windowEvents {p : Params} {d : Dec} (hwf : p.wf = true) (herr : d.err = none)
    (w : Window Int) :
    Dec.pins p ((windowEvents p w).flatMap framing) d =
      ({ d.commanded p.regGram with
          win := mapWindow coordWord w, cx := (coordWord w.x1).toNat, cy := (coordWord w.y1).toNat },
        none) := by
  have hsplit : (windowEvents p w).flatMap framing =
      (framing (.cmd p.regHS) ++ framing (.data (coordWord w.x1))) ++
      ((framing (.cmd p.regHE) ++ framing (.data (coordWord w.x2))) ++
      ((framing (.cmd p.regVS) ++ framing (.data (coordWord w.y1))) ++
      ((framing (.cmd p.regVE) ++ framing (.data (coordWord w.y2))) ++
      ((framing (.cmd p.regAX) ++ framing (.data (coordWord w.x1))) ++
      ((framing (.cmd p.regAY) ++ framing (.data (coordWord w.y1))) ++ framing (.cmd p.regGram)))))) := by
    simp [windowEvents]
  have hsetters := Dec.registerWord_setters hwf
  simp only [forall_and] at hsetters
  obtain ⟨hHS, hHE, hVS, hVE, hAX, hAY, -⟩ := hsetters
  rw [hsplit]
  exact Dec.pins_append_quiet (Dec.pins_writeReg herr (by simp [Params.roles]) (hHS _ _)) <|
    Dec.pins_append_quiet (Dec.pins_writeReg herr (by simp [Params.roles]) (hHE _ _)) <|
    Dec.pins_append_quiet (Dec.pins_writeReg herr (by simp [Params.roles]) (hVS _ _)) <|
    Dec.pins_append_quiet (Dec.pins_writeReg herr (by simp [Params.roles]) (hVE _ _)) <|
    Dec.pins_append_quiet (Dec.pins_writeReg herr (by simp [Params.roles]) (hAX _ _)) <|
    Dec.pins_append_quiet (Dec.pins_writeReg herr (by simp [Params.roles]) (hAY _ _)) <|
    Dec.pins_cmd herr (Params.mapped_regGram p)

/-- The pin sequence of a word to the GRAM port with the cursor inside the window and the framebuffer
(44_decoder R261). -/
theorem Dec.pins_gram {p : Params} {d : Dec} (w : Word16) (herr : d.err = none)
    (hlatched : d.latched = some p.regGram) (hpartial : d.partialByte = none)
    (hwin : d.cursorInWindow = true) (hfb : d.cursorInFramebuffer p = true) :
    Dec.pins p (framing (.data w)) d =
      ({ (d.fbWrite p d.cx d.cy w).advanceCursor with
          rs := some .data, cs := false, partialByte := none, phase := .commandLatched }, none) := by
  have hword : d.atDataWord.registerWord p p.regGram w =
      ((d.atDataWord.fbWrite p d.cx d.cy w).advanceCursor, none) := by
    rw [Dec.registerWord_gram, Dec.gramWrite, show d.atDataWord.cursorInWindow = true from hwin,
      show d.atDataWord.cursorInFramebuffer p = true from hfb]
    rfl
  exact Dec.pins_data_taken herr hlatched hpartial hword

/-! ## Coordinates on both sides of the wire -/

theorem coordWord_toNat {v : Int} (h : 0 ≤ v) (hlt : v < 65536) : ((coordWord v).toNat : Int) = v := by
  rw [coordWord, BitVec.toNat_ofInt]
  omega

/-- The addressing rule gives the same cell on naturals and on integers (40_transport R150). -/
theorem advance_cast (w : Window Nat) (cx cy : Nat) :
    advance (mapWindow Nat.cast w) (cx : Int) (cy : Int) =
      (((advance w cx cy).1 : Int), ((advance w cx cy).2 : Int)) := by
  simp only [advance, mapWindow]
  norm_cast
  split_ifs <;> rfl

/-- The addressing rule keeps the two cursors equal when the windows are (40_transport R150, 44_decoder
R281). -/
theorem advance_agrees {win : Window Word16} {w : Window Int} {cx cy : Nat} {x y : Int}
    (hwin : mapWindow (fun v => (v.toNat : Int)) win = w) (hx : (cx : Int) = x) (hy : (cy : Int) = y) :
    ((advance (mapWindow BitVec.toNat win) cx cy).1 : Int) = (advance w x y).1 ∧
      ((advance (mapWindow BitVec.toNat win) cx cy).2 : Int) = (advance w x y).2 := by
  subst hwin hx hy
  exact Prod.mk.inj (advance_cast (mapWindow BitVec.toNat win) cx cy).symm

/-- The framebuffer's extents under well-formed parameters (10_state R49, log 13). -/
theorem Params.wf_framebuffer {p : Params} (h : p.wf = true) :
    1 ≤ p.fbW ∧ p.fbW ≤ 65536 ∧ 1 ≤ p.fbH ∧ p.fbH ≤ 65536 := by
  simp only [Params.wf, Params.framebufferWf, Bool.and_eq_true, decide_eq_true_eq] at h
  tauto

/-- A normalised window lies in the framebuffer when the extents do (41_encoder_config R181, 70_reset
R354). -/
theorem windowInFramebuffer_normWindow {p : Params} {d : DeviceState} (hwf : p.wf = true)
    (hw : d.width ≤ p.fbW) (hh : d.height ≤ p.fbH) (x1 y1 x2 y2 : Int) :
    windowInFramebuffer p (d.normWindow x1 y1 x2 y2) := by
  obtain ⟨hw1, -, hh1, -⟩ := Params.wf_framebuffer hwf
  simp only [windowInFramebuffer, DeviceState.normWindow, clamp]
  omega

/-! ## Requests carried to their end -/

/-- A request that sends events, carried to its end on an empty wire: the decoder has taken their pin
sequences, and nothing but the front end's records of them differs besides (40_transport R149, R153). -/
theorem State.carriedOut_sent {i : Instr} {s : State} {evs : List Event} {d : DeviceState} {r : RegAddr}
    (hexec : exec i s = .next (s.sent evs d r)) (hne : evs ≠ []) (hwire : s.wire = []) :
    ∃ res, s.carriedOut i = some { s with
      enc := { s.enc with dev := some d, latched := some r, out := s.enc.out ++ evs, ready := true }
      dec := (Dec.pins s.par (evs.flatMap framing) s.dec).1, wire := [], owed := 0, result := res } := by
  obtain ⟨ev, rest, rfl⟩ := List.exists_cons_of_ne_nil hne
  have hsent : (s.sent (ev :: rest) d r).wire = (ev :: rest).flatMap framing := by
    rw [State.sent_wire, hwire, List.nil_append]
  have howed : (s.sent (ev :: rest) d r).owed ≤ (s.sent (ev :: rest) d r).wire.length := le_refl _
  obtain ⟨res, hsettle⟩ := State.settle_eq (by simp) howed
  refine ⟨res, ?_⟩
  simp only [State.carriedOut, hexec, hsettle, hsent]
  rfl

/-- Everything SET_WINDOW does on a configured front end (41_encoder_config R180). -/
theorem exec_setWindow_configured {s : State} {d : DeviceState} (hd : s.enc.dev = some d)
    (x1 y1 x2 y2 : Int) :
    exec (.setWindow x1 y1 x2 y2) s =
      .next (s.sent (windowEvents s.par (d.normWindow x1 y1 x2 y2))
        (d.setWindow (d.normWindow x1 y1 x2 y2)) s.par.regGram) :=
  congrArg Host.Outcome.next ((State.withDevice_some _ _ hd).trans (State.setWindowCore_eq hd _))

/-- Everything WRITE_DATA16 does on a configured front end (41_encoder_config R193). -/
theorem exec_writeData16_configured {s : State} {d : DeviceState} (hd : s.enc.dev = some d) (v : Word16) :
    exec (.writeData16 v) s =
      .next (s.sent (reopenEvents s.par s.enc.latched v) d.advanceCursor s.par.regGram) :=
  congrArg Host.Outcome.next ((State.withDevice_some _ _ hd).trans (State.reopenGram_emitData hd v))

/-! ## The stream of words through a window -/

/-- Between two words of the stream through window `w`, after `n` of them: the wire is empty, the units agree,
GRAM write mode is open, and the cursor is where the addressing rule has brought it. -/
def State.Streaming (w : Window Int) (n : Nat) (s : State) : Prop :=
  s.wire = [] ∧ s.Agree ∧ s.enc.latched = some s.par.regGram ∧
    ∃ d, s.enc.dev = some d ∧ d.win = w ∧ (d.cx, d.cy) = cursorAfter w n

/-- SET_WINDOW begins the stream and changes no cell (41_encoder_config R182, 42_raster_primitives R200). -/
theorem State.carriedOut_setWindow {s : State} {d : DeviceState} (hwf : s.par.wf = true)
    (hwire : s.wire = []) (hagree : s.Agree) (hfit : s.ExtentsFit) (hd : s.enc.dev = some d)
    (x1 y1 x2 y2 : Int) :
    ∃ t, s.carriedOut (.setWindow x1 y1 x2 y2) = some t ∧ t.par = s.par ∧ t.dec.fb = s.dec.fb ∧
      t.Streaming (d.normWindow x1 y1 x2 y2) 0 := by
  obtain ⟨herr, hboth⟩ := hagree
  obtain ⟨-, -, -, hentry, -⟩ := hboth d hd
  obtain ⟨hwidth, hheight⟩ := hfit d hd
  obtain ⟨hx0, hx12, hx, hy0, hy12, hy⟩ := windowInFramebuffer_normWindow hwf hwidth hheight x1 y1 x2 y2
  obtain ⟨-, hfbW, -, hfbH⟩ := Params.wf_framebuffer hwf
  obtain ⟨res, hcarried⟩ :=
    State.carriedOut_sent (exec_setWindow_configured hd x1 y1 x2 y2) (by simp [windowEvents]) hwire
  rw [Dec.pins_windowEvents hwf herr] at hcarried
  refine ⟨_, hcarried, rfl, rfl, rfl, ⟨herr, ?_⟩, rfl, _, rfl, rfl, rfl⟩
  rintro _ ⟨⟩
  have hleft := coordWord_toNat hx0 (by omega)
  have htop := coordWord_toNat hy0 (by omega)
  have hright := coordWord_toNat (hx0.trans hx12) (by omega)
  have hbottom := coordWord_toNat (hy0.trans hy12) (by omega)
  exact ⟨⟨hleft, htop, hright, hbottom⟩, ⟨hleft, htop⟩, rfl, hentry, rfl⟩

/-- One word of the stream is written where the cursor stands (41_encoder_config R193, 44_decoder R261). -/
theorem State.Streaming.carriedOut_writeData16 {s : State} {w : Window Int} {n : Nat}
    (hs : s.Streaming w n) (hw : windowInFramebuffer s.par w) (v : Word16) :
    ∃ t, s.carriedOut (.writeData16 v) = some t ∧ t.par = s.par ∧ t.Streaming w (n + 1) ∧
      ∀ x y : Nat, x < s.par.fbW → t.dec.cell s.par x y =
        if cursorAfter w n = ((x : Int), (y : Int)) then some v else s.dec.cell s.par x y := by
  obtain ⟨hwire, ⟨herr, hboth⟩, hgram, d, hd, rfl, hcursor⟩ := hs
  obtain ⟨⟨hx1, hy1, hx2, hy2⟩, ⟨hcx, hcy⟩, hlatched, hentry, hpartial⟩ := hboth d hd
  obtain ⟨-, hx12, hfbW, -, hy12, hfbH⟩ := hw
  have hmem := cursorAfter_mem hx12 hy12 n
  rw [← hcursor] at hmem ⊢
  have hwin : s.dec.cursorInWindow = true := by
    simp only [Dec.cursorInWindow, decide_eq_true_eq]
    omega
  have hfb : s.dec.cx < s.par.fbW ∧ s.dec.cy < s.par.fbH := by omega
  have hpins := Dec.pins_gram v herr (hlatched.trans hgram) hpartial hwin (decide_eq_true hfb)
  have hexec := exec_writeData16_configured hd v
  rw [reopenEvents, if_pos hgram] at hexec
  obtain ⟨res, hcarried⟩ := State.carriedOut_sent hexec (by simp) hwire
  rw [List.flatMap_singleton, hpins] at hcarried
  refine ⟨_, hcarried, rfl, ⟨rfl, ⟨herr, ?_⟩, rfl, _, rfl, rfl, ?_⟩, fun x y hx => ?_⟩
  · rintro _ ⟨⟩
    have hwindows : mapWindow (fun v => (v.toNat : Int)) s.dec.win = d.win := by
      simp only [mapWindow, hx1, hy1, hx2, hy2]
    exact ⟨⟨hx1, hy1, hx2, hy2⟩, advance_agrees hwindows hcx hcy, hlatched.trans hgram, hentry, rfl⟩
  · rw [cursorAfter_succ, ← hcursor]
    rfl
  · have hat : (d.cx, d.cy) = ((x : Int), (y : Int)) ↔ x = s.dec.cx ∧ y = s.dec.cy := by
      rw [Prod.mk.injEq]
      omega
    simp only [hat]
    exact Dec.fbWrite_cell v s.dec hfb.1 hx

/-- The rest of the stream fills the rest of the window, row by row (40_transport R151). -/
theorem State.Streaming.carriedOutAll_words {s : State} {w : Window Int} {n : Nat} {words : List Word16}
    (hs : s.Streaming w n) (hw : windowInFramebuffer s.par w)
    (hlength : n + words.length = windowCols w * windowRows w) :
    ∃ t, s.carriedOutAll (words.map .writeData16) = some t ∧
      t.Streaming w (windowCols w * windowRows w) ∧
      ∀ x y : Nat, x < s.par.fbW →
        (windowHas w x y → t.dec.cell s.par x y =
          if cellNumber w x y < n then s.dec.cell s.par x y else words[cellNumber w x y - n]?) ∧
        (¬ windowHas w x y → t.dec.cell s.par x y = s.dec.cell s.par x y) := by
  obtain ⟨hx0, hx12, -, hy0, hy12, -⟩ := id hw
  induction words generalizing s n with
  | nil =>
    obtain rfl : n = windowCols w * windowRows w := hlength
    exact ⟨s, rfl, hs, fun x y _ => ⟨fun hin => (if_pos (cellNumber_lt hin hx0 hy0)).symm, fun _ => rfl⟩⟩
  | cons v words ih =>
    rw [List.length_cons] at hlength
    obtain ⟨s₁, hcarried, hpar, hs₁, hcell₁⟩ := hs.carriedOut_writeData16 hw v
    obtain ⟨t, hrest, ht, hcell⟩ := ih hs₁ (hpar ▸ hw) (by omega)
    rw [hpar] at hcell
    refine ⟨t, by simp [State.carriedOutAll, hcarried, hrest], ht, fun x y hx => ?_⟩
    obtain ⟨hinside, houtside⟩ := hcell x y hx
    refine ⟨fun hin => ?_, fun hout => ?_⟩
    · rw [hinside hin, hcell₁ x y hx]
      simp only [cursorAfter_eq_iff hin hx0 hy0 (show n < windowCols w * windowRows w by omega)]
      rcases Nat.lt_trichotomy (cellNumber w x y) n with hlt | heq | hgt
      · rw [if_pos (Nat.lt_succ_of_lt hlt), if_pos hlt, if_neg hlt.ne']
      · simp [heq]
      · rw [if_neg (Nat.not_lt.mpr hgt), if_neg hgt.not_gt, ← Nat.sub_sub,
          List.getElem?_cons, if_neg (Nat.sub_ne_zero_of_lt hgt)]
    · rw [houtside hout, hcell₁ x y hx, if_neg (cursorAfter_ne_outside hx12 hy12 hout n)]

/-- Settles O60: SET_WINDOW begins the stream, and as many words as the window has cells end it. -/
theorem wordStreamFillsTheWindow : Obligations.WordStreamFillsTheWindow := by
  intro x1 y1 x2 y2 words d s _ hwf hwire hagree hfit hd w cols hlength
  obtain ⟨hwidth, hheight⟩ := hfit d hd
  have hw : windowInFramebuffer s.par w := windowInFramebuffer_normWindow hwf hwidth hheight x1 y1 x2 y2
  obtain ⟨s₁, hcarried, hpar, hfb, hs₁⟩ := State.carriedOut_setWindow hwf hwire hagree hfit hd x1 y1 x2 y2
  obtain ⟨t, hwords, ⟨-, htagree, -, d', hd', hwin, hcursor⟩, hcell⟩ :=
    hs₁.carriedOutAll_words (hpar ▸ hw) ((Nat.zero_add _).trans hlength)
  obtain ⟨-, hx12, -, -, hy12, -⟩ := hw
  rw [cursorAfter_cells hx12 hy12] at hcursor
  obtain ⟨hcx, hcy⟩ := Prod.mk.inj hcursor
  refine ⟨t, d', by simp [State.carriedOutAll, hcarried, hwords], htagree, hd', hwin, hcx, hcy, ?_⟩
  intro x y hx _
  rw [hpar] at hcell
  obtain ⟨hinside, houtside⟩ := hcell x y hx
  have hsame : s₁.dec.cell s.par x y = s.dec.cell s.par x y := by rw [Dec.cell, hfb, Dec.cell]
  refine ⟨fun h1 h2 h3 h4 => ?_, fun hout => (houtside hout).trans hsame⟩
  rw [hinside ⟨h1, h2, h3, h4⟩, if_neg (Nat.not_lt_zero _)]
  rfl

end Sys2Proof.Machine
end

section
/-! SUPPORT. The configuration and addressing requests on a configured device (41_encoder_config): the one
equation of each accepted request, and the statements about them. -/

namespace Sys2Proof.Machine

/-! ## The DeviceState they write -/

/-- The cursor's move written out (40_transport R150). -/
theorem DeviceState.advanceCursor_eq (d : DeviceState) :
    d.advanceCursor = { d with
      cx := if d.cx + 1 ≤ d.win.x2 then d.cx + 1 else d.win.x1
      cy := if d.cx + 1 ≤ d.win.x2 then d.cy else if d.cy + 1 ≤ d.win.y2 then d.cy + 1 else d.win.y1 } := by
  unfold DeviceState.advanceCursor advance
  split_ifs <;> rfl

/-- The extents are exchanged exactly when the axis bit changes (41_encoder_config R186). -/
theorem DeviceState.rotate_eq (rot : BitVec 3) (d : DeviceState) :
    d.rotate rot = { d with
      rotation := rot
      width := if d.rotation.getLsbD 2 = rot.getLsbD 2 then d.width else d.height
      height := if d.rotation.getLsbD 2 = rot.getLsbD 2 then d.height else d.width } := by
  unfold DeviceState.rotate
  split_ifs <;> rfl

/-- Back on the first axis the device has its first extents (41_encoder_config R186). -/
theorem DeviceState.rotate_rotate_extents (d : DeviceState) (rot : BitVec 3) {back : BitVec 3}
    (hback : back.getLsbD 2 = d.rotation.getLsbD 2) :
    ((d.rotate rot).rotate back).width = d.width ∧ ((d.rotate rot).rotate back).height = d.height := by
  simp only [DeviceState.rotate_eq, hback]
  by_cases haxis : d.rotation.getLsbD 2 = rot.getLsbD 2
  · simp only [if_pos haxis, if_pos haxis.symm, and_self]
  · simp only [if_neg haxis, if_neg (Ne.symm haxis), and_self]

theorem clamp_eq_self {v lo hi : Int} (hlo : lo ≤ v) (hhi : v ≤ hi) : clamp v lo hi = v := by
  rw [clamp, min_eq_left hhi, max_eq_right hlo]

/-- Ordered corners on the device are their own normalised window (41_encoder_config R181). -/
theorem DeviceState.normWindow_eq_self {d : DeviceState} {w : Window Int} (h : d.Holds w) :
    d.normWindow w.x1 w.y1 w.x2 w.y2 = w := by
  obtain ⟨hx1, hx12, hx2, hy1, hy12, hy2⟩ := h
  rw [DeviceState.normWindow, min_eq_left hx12, max_eq_right hx12, min_eq_left hy12, max_eq_right hy12,
    clamp_eq_self hx1 (hx12.trans hx2), clamp_eq_self (hx1.trans hx12) hx2,
    clamp_eq_self hy1 (hy12.trans hy2), clamp_eq_self (hy1.trans hy12) hy2]

/-- Which corner comes first in a row does not matter (41_encoder_config R181). -/
theorem DeviceState.normWindow_swap_x (d : DeviceState) (x1 y1 x2 y2 : Int) :
    d.normWindow x2 y1 x1 y2 = d.normWindow x1 y1 x2 y2 := by
  rw [DeviceState.normWindow, DeviceState.normWindow, min_comm x2, max_comm x2]

/-- Which corner comes first in a column does not matter (41_encoder_config R181). -/
theorem DeviceState.normWindow_swap_y (d : DeviceState) (x1 y1 x2 y2 : Int) :
    d.normWindow x1 y2 x2 y1 = d.normWindow x1 y1 x2 y2 := by
  rw [DeviceState.normWindow, DeviceState.normWindow, min_comm y2, max_comm y2]

/-! ## INIT, SET_ROTATION and SET_COLOR_ORDER -/

theorem rotationInRange_iff {rot : Int} : rotationInRange rot = true ↔ 0 ≤ rot ∧ rot ≤ 7 :=
  decide_eq_true_iff

theorem initInRange_iff {p : Params} {w h rot : Int} : initInRange p w h rot = true ↔
    (0 ≤ rot ∧ rot ≤ 7) ∧ 1 ≤ w ∧ w ≤ p.maxDim ∧ 1 ≤ h ∧ h ≤ p.maxDim := by
  rw [initInRange, Bool.and_eq_true, rotationInRange_iff, decide_eq_true_iff]

/-- The entry word rewritten for a changed device: the entry register is not the GRAM port, so the cursor
stays (40_transport R142). -/
theorem State.setDevice_writeEntry {s : State} (hwf : s.par.wf = true) (d : DeviceState) (v : Word16) :
    (s.setDevice d).writeReg s.par.regEntry v = s.sent [.cmd s.par.regEntry, .data v] d s.par.regEntry := by
  rw [State.setDevice_writeReg, if_neg (Params.wf_regEntry_ne_regGram hwf)]

section Configured

variable {s : State} {d : DeviceState} (hd : s.enc.dev = some d)
include hd

/-- The range check comes before the idempotence test (41_encoder_config R185, R187). -/
theorem exec_setRotation_configured (rot : Int) :
    exec (.setRotation rot) s = .next
      (if !rotationInRange rot then s.drop rangeError 0x3
       else if BitVec.ofInt 3 rot = d.rotation then s
       else (s.setDevice (d.rotate (BitVec.ofInt 3 rot))).writeReg s.par.regEntry
        (s.par.entryWord (BitVec.ofInt 3 rot) d.colorOrder)) :=
  congrArg Host.Outcome.next (State.withDevice_some _ _ hd)

theorem exec_setRotation_outOfRange {rot : Int} (hrot : rotationInRange rot = false) :
    exec (.setRotation rot) s = .next (s.logged rangeError 0x3) := by
  rw [exec_setRotation_configured hd, hrot]
  rfl

theorem exec_setRotation_current {rot : Int} (hrot : rotationInRange rot = true)
    (hcurrent : BitVec.ofInt 3 rot = d.rotation) : exec (.setRotation rot) s = .next s := by
  rw [exec_setRotation_configured hd, hrot, if_neg (by decide), if_pos hcurrent]

theorem exec_setRotation_changed (hwf : s.par.wf = true) {rot : Int} (hrot : rotationInRange rot = true)
    (hother : BitVec.ofInt 3 rot ≠ d.rotation) :
    exec (.setRotation rot) s = .next (s.sent
      [.cmd s.par.regEntry, .data (s.par.entryWord (BitVec.ofInt 3 rot) d.colorOrder)]
      (d.rotate (BitVec.ofInt 3 rot)) s.par.regEntry) := by
  rw [exec_setRotation_configured hd, hrot, if_neg (by decide), if_neg hother,
    State.setDevice_writeEntry hwf]

theorem exec_setColorOrder_configured (isRgb : Bool) :
    exec (.setColorOrder isRgb) s = .next
      (if selectedOrder isRgb = d.colorOrder then s
       else (s.setDevice { d with colorOrder := selectedOrder isRgb }).writeReg s.par.regEntry
        (s.par.entryWord d.rotation (selectedOrder isRgb))) :=
  congrArg Host.Outcome.next (State.withDevice_some _ _ hd)

theorem exec_setColorOrder_changed (hwf : s.par.wf = true) {isRgb : Bool}
    (hother : selectedOrder isRgb ≠ d.colorOrder) :
    exec (.setColorOrder isRgb) s = .next (s.sent
      [.cmd s.par.regEntry, .data (s.par.entryWord d.rotation (selectedOrder isRgb))]
      { d with colorOrder := selectedOrder isRgb } s.par.regEntry) := by
  rw [exec_setColorOrder_configured hd, if_neg hother, State.setDevice_writeEntry hwf]

end Configured

theorem selectedOrder_eq_iff {isRgb : Bool} {order : ColorOrder} :
    selectedOrder isRgb = order ↔ (isRgb = true ↔ order = .rgb) := by
  cases isRgb <;> cases order <;> decide

/-! ## The statements -/

/-- Settles O16: the events of an accepted INIT with those of its full window spelled out. -/
theorem initRunsTheSequence : Obligations.InitRunsTheSequence := by
  intro W H rot s hrot0 hrot7 hW hWmax hH hHmax
  have hin : initInRange s.par W H rot = true :=
    initInRange_iff.mpr ⟨⟨hrot0, hrot7⟩, hW, hWmax, hH, hHmax⟩
  exact execInit_accepted hin

/-- Settles O18: the 13 events of the normalised window spelled out. -/
theorem setWindowSendsNormalisedWindow : Obligations.SetWindowSendsNormalisedWindow := by
  intro x1 y1 x2 y2 s d hd a b c e
  exact exec_setWindow_configured hd x1 y1 x2 y2

/-- Settles O19: the normalised window lies on the device, what lies there is kept, and the corners are
symmetric. -/
theorem normalisedWindowIsOnDevice : Obligations.NormalisedWindowIsOnDevice := by
  intro d x1 y1 x2 y2 hwidth hheight w
  refine ⟨DeviceState.holds_normWindow x1 y1 x2 y2 hwidth hheight, ?_,
    d.normWindow_swap_x x1 y1 x2 y2, d.normWindow_swap_y x1 y1 x2 y2⟩
  intro hx1 hx12 hx2 hy1 hy12 hy2
  exact DeviceState.normWindow_eq_self (w := ⟨x1, y1, x2, y2⟩) ⟨hx1, hx12, hx2, hy1, hy12, hy2⟩

/-- Settles O20: the entry word is written beside the turned device, and turning back restores the extents. -/
theorem setRotationWritesEntryWord : Obligations.SetRotationWritesEntryWord := by
  intro rot s d hwf hd hrot0 hrot7 hother new
  refine ⟨?_, fun back hback => d.rotate_rotate_extents new hback⟩
  have hexec := exec_setRotation_changed hd hwf (rotationInRange_iff.mpr ⟨hrot0, hrot7⟩) hother
  rwa [DeviceState.rotate_eq] at hexec

/-- Settles O21: the order differs, so that the entry word is written. -/
theorem setColorOrderWritesEntryWord : Obligations.SetColorOrderWritesEntryWord := by
  intro isRgb s d hwf hd ord hother
  exact exec_setColorOrder_changed hd hwf hother

/-- Settles O22: each request finds its current value and leaves the state, but not before the range check. -/
theorem configurationRequestsIdempotent : Obligations.ConfigurationRequestsIdempotent := by
  intro s d hd
  refine ⟨fun rot hrot0 hrot7 hcurrent => ?_, fun isRgb hcurrent => ?_, fun rot hout => ?_⟩
  · exact exec_setRotation_current hd (rotationInRange_iff.mpr ⟨hrot0, hrot7⟩) hcurrent
  · rw [exec_setColorOrder_configured hd, if_pos (selectedOrder_eq_iff.mpr hcurrent)]
  · have hrot : rotationInRange rot = false := by
      rw [← Bool.not_eq_true, rotationInRange_iff]
      omega
    exact exec_setRotation_outOfRange hd hrot

/-- Settles O23: the word after GRAM write mode is open, and the cursor's move written out. -/
theorem writeData16SendsOneWord : Obligations.WriteData16SendsOneWord := by
  intro w s d hd d'
  rw [exec_writeData16_configured hd, DeviceState.advanceCursor_eq]
  rfl

end Sys2Proof.Machine
end

section
/-! SUPPORT. `LineCore` as a list: its length, the cell of each step, its symmetry, and the horizontal and
vertical lines that a rectangle's outline is made of (42_raster_primitives R210, R212, R215). -/

namespace Sys2Proof.Machine

/-! ## The walk along the major axis -/

/-- The plot of one step: a steep line exchanges the axes back (42_raster_primitives R210). -/
def linePoint (steep : Bool) (x y : Int) : Point := if steep then ⟨y, x⟩ else ⟨x, y⟩

theorem lineWalk_succ (steep : Bool) (dx dy ystep : Int) (n : Nat) (x y err : Int) :
    lineWalk steep dx dy ystep (n + 1) x y err = linePoint steep x y ::
      (if err - dy < 0 then lineWalk steep dx dy ystep n (x + 1) (y + ystep) (err - dy + dx)
       else lineWalk steep dx dy ystep n (x + 1) y (err - dy)) := rfl

theorem lineWalk_length (steep : Bool) (dx dy ystep : Int) (n : Nat) (x y err : Int) :
    (lineWalk steep dx dy ystep n x y err).length = n := by
  induction n generalizing x y err with
  | zero => rfl
  | succ n ih =>
    rw [lineWalk_succ]
    split_ifs <;> rw [List.length_cons, ih]

/-- Step `k` of the walk stands `k` columns on and `j` rows off, where the `j` corrections of the error term
have kept it in range; which axis is the major one does not matter (42_raster_primitives R210). -/
theorem lineWalk_getElem? {dx dy : Int} (ystep : Int) (hdy : 0 ≤ dy) (hdx : dy ≤ dx) {n k : Nat} (hk : k < n)
    {err : Int} (herr : 0 ≤ err) (hmax : err < max dx 1) (x y : Int) :
    ∃ j : Int, 0 ≤ err - k * dy + j * dx ∧ err - k * dy + j * dx < max dx 1 ∧
      ∀ steep, (lineWalk steep dx dy ystep n x y err)[k]? = some (linePoint steep (x + k) (y + ystep * j)) := by
  induction k generalizing n x y err with
  | zero =>
    obtain ⟨n, rfl⟩ := Nat.exists_eq_add_one_of_ne_zero (Nat.ne_zero_of_lt hk)
    exact ⟨0, by simpa using herr, by simpa using hmax, fun steep => by simp [lineWalk_succ]⟩
  | succ k ih =>
    obtain ⟨n, rfl⟩ := Nat.exists_eq_add_one_of_ne_zero (Nat.ne_zero_of_lt hk)
    have hkn : k < n := Nat.lt_of_succ_lt_succ hk
    simp only [lineWalk_succ, List.getElem?_cons_succ]
    split_ifs with hcross
    · obtain ⟨j, hlow, hhigh, hcell⟩ :=
        ih hkn (err := err - dy + dx) (by omega) (by omega) (x + 1) (y + ystep)
      have hterm : err - (k + 1 : Nat) * dy + (j + 1) * dx = err - dy + dx - k * dy + j * dx := by
        push_cast
        ring
      refine ⟨j + 1, hterm ▸ hlow, hterm ▸ hhigh, fun steep => ?_⟩
      rw [hcell, Nat.cast_succ, mul_add, mul_one]
      congr 2 <;> ring
    · obtain ⟨j, hlow, hhigh, hcell⟩ := ih hkn (err := err - dy) (by omega) (by omega) (x + 1) y
      have hterm : err - (k + 1 : Nat) * dy + j * dx = err - dy - k * dy + j * dx := by
        push_cast
        ring
      refine ⟨j, hterm ▸ hlow, hterm ▸ hhigh, fun steep => ?_⟩
      rw [hcell, Nat.cast_succ]
      congr 2
      ring

/-- A walk with nothing to rise stays in its row. -/
theorem lineWalk_straight (steep : Bool) (dx ystep : Int) (n : Nat) (x y : Int) {err : Int} (herr : 0 ≤ err) :
    lineWalk steep dx 0 ystep n x y err = (List.range n).map fun k : Nat => linePoint steep (x + k) y := by
  induction n generalizing x with
  | zero => rfl
  | succ n ih =>
    rw [lineWalk_succ, sub_zero, if_neg (not_lt.mpr herr), ih, List.range_succ_eq_map, List.map_cons,
      List.map_map]
    simp [Function.comp_def, add_assoc, add_comm (1 : Int)]

/-! ## Endpoints -/

theorem lineOrdered_length (steep : Bool) (x0 y0 x1 y1 : Int) :
    (lineOrdered steep x0 y0 x1 y1).length = |x1 - x0|.toNat + 1 := by
  rw [Int.abs_eq_natAbs (x1 - x0), lineOrdered, lineFrom, lineFrom]
  split_ifs <;> rw [lineWalk_length] <;> omega

/-- The order of the ends is settled by their x, unless one point is both (42_raster_primitives R212). -/
theorem lineOrdered_swap (steep : Bool) {x0 y0 x1 y1 : Int} (h : x0 = x1 → y0 = y1) :
    lineOrdered steep x0 y0 x1 y1 = lineOrdered steep x1 y1 x0 y0 := by
  unfold lineOrdered
  rcases lt_trichotomy x0 x1 with hlt | heq | hgt
  · rw [if_neg (not_lt.mpr hlt.le), if_pos hlt]
  · rw [h heq, heq]
  · rw [if_pos hgt, if_neg (not_lt.mpr hgt.le)]

theorem lineCells_steep {x0 y0 x1 y1 : Int} (h : |x1 - x0| < |y1 - y0|) :
    lineCells x0 y0 x1 y1 = lineOrdered true y0 x0 y1 x1 := if_pos h

theorem lineCells_flat {x0 y0 x1 y1 : Int} (h : |y1 - y0| ≤ |x1 - x0|) :
    lineCells x0 y0 x1 y1 = lineOrdered false x0 y0 x1 y1 := if_neg (not_lt.mpr h)

/-- A line drawn from either end (42_raster_primitives R212). -/
theorem lineCells_swap (x0 y0 x1 y1 : Int) : lineCells x0 y0 x1 y1 = lineCells x1 y1 x0 y0 := by
  rcases lt_or_ge |x1 - x0| |y1 - y0| with hsteep | hflat
  · have hsteep' : |x0 - x1| < |y0 - y1| := by rwa [abs_sub_comm x0, abs_sub_comm y0]
    rw [lineCells_steep hsteep, lineCells_steep hsteep']
    refine lineOrdered_swap true fun hy => ?_
    rw [hy, sub_self, abs_zero] at hsteep
    exact absurd hsteep (not_lt.mpr (abs_nonneg _))
  · have hflat' : |y0 - y1| ≤ |x0 - x1| := by rwa [abs_sub_comm x0, abs_sub_comm y0]
    rw [lineCells_flat hflat, lineCells_flat hflat']
    refine lineOrdered_swap false fun hx => ?_
    rw [hx, sub_self, abs_zero, abs_nonpos_iff, sub_eq_zero] at hflat
    exact hflat.symm

/-! ## Horizontal and vertical lines -/

theorem lineOrdered_straight (steep : Bool) {x0 x1 : Int} (y : Int) (h : x0 ≤ x1) :
    lineOrdered steep x0 y x1 y =
      (List.range (x1 - x0 + 1).toNat).map fun k : Nat => linePoint steep (x0 + k) y := by
  rw [lineOrdered, if_neg (not_lt.mpr h), lineFrom, sub_self, abs_zero]
  exact lineWalk_straight _ _ _ _ _ _ (by omega)

/-- The cells of a horizontal line, from left to right (42_raster_primitives R210). -/
theorem lineCells_horizontal {x0 x1 : Int} (y : Int) (h : x0 ≤ x1) :
    lineCells x0 y x1 y = (List.range (x1 - x0 + 1).toNat).map fun k : Nat => ⟨x0 + k, y⟩ := by
  rw [lineCells_flat (by simp), lineOrdered_straight false y h]
  rfl

/-- The cells of a vertical line, from top to bottom (42_raster_primitives R210). -/
theorem lineCells_vertical (x : Int) {y0 y1 : Int} (h : y0 ≤ y1) :
    lineCells x y0 x y1 = (List.range (y1 - y0 + 1).toNat).map fun k : Nat => ⟨x, y0 + k⟩ := by
  rcases h.eq_or_lt with rfl | hlt
  · simp [lineCells_horizontal]
  · have hsteep : |x - x| < |y1 - y0| := by simpa using sub_ne_zero.mpr hlt.ne'
    rw [lineCells_steep hsteep, lineOrdered_straight true x h]
    rfl

/-- A natural offset below a length is a coordinate between the ends. -/
theorem exists_offset_iff {a b v : Int} :
    (∃ k : Nat, k < (b - a + 1).toNat ∧ a + k = v) ↔ a ≤ v ∧ v ≤ b := by
  constructor
  · rintro ⟨k, hk, rfl⟩
    omega
  · rintro ⟨ha, hb⟩
    exact ⟨(v - a).toNat, by omega, by omega⟩

theorem mem_lineCells_horizontal {x0 x1 y : Int} {pt : Point} (h : x0 ≤ x1) :
    pt ∈ lineCells x0 y x1 y ↔ x0 ≤ pt.x ∧ pt.x ≤ x1 ∧ pt.y = y := by
  obtain ⟨px, py⟩ := pt
  rw [lineCells_horizontal y h, ← and_assoc, ← exists_offset_iff]
  simp only [List.mem_map, List.mem_range, Point.mk.injEq, ← and_assoc, exists_and_right, eq_comm (a := y)]

theorem mem_lineCells_vertical {x y0 y1 : Int} {pt : Point} (h : y0 ≤ y1) :
    pt ∈ lineCells x y0 x y1 ↔ y0 ≤ pt.y ∧ pt.y ≤ y1 ∧ pt.x = x := by
  obtain ⟨px, py⟩ := pt
  rw [lineCells_vertical x h, ← and_assoc, ← exists_offset_iff, and_comm]
  simp only [List.mem_map, List.mem_range, Point.mk.injEq, and_left_comm (b := px = x), exists_and_left,
    eq_comm (a := x)]

/-! ## The statements -/

/-- Settles O30: the walk is as long as its count of steps. -/
theorem lineHasMajorAxisLength : Obligations.LineHasMajorAxisLength := by
  intro x0 y0 x1 y1
  rcases lt_or_ge |x1 - x0| |y1 - y0| with hsteep | hflat
  · rw [lineCells_steep hsteep, lineOrdered_length, max_eq_right hsteep.le]
  · rw [lineCells_flat hflat, lineOrdered_length, max_eq_left hflat]

/-- Settles O31: the walk from `(x0, y0)` with half of `dx` in its error term, on either major axis. -/
theorem lineFollowsTheErrorTerm : Obligations.LineFollowsTheErrorTerm := by
  intro x0 y0 x1 y1 k hx hslope hk
  obtain ⟨j, hlow, hhigh, hcell⟩ := lineWalk_getElem? (if y0 < y1 then 1 else -1) (abs_nonneg (y1 - y0)) hslope
    (show k < (x1 - x0 + 1).toNat by omega) (err := (x1 - x0) / 2) (by omega) (by omega) x0 y0
  have habs : |x1 - x0| = x1 - x0 := abs_of_nonneg (sub_nonneg.mpr hx)
  have hwalk : ∀ steep, (lineOrdered steep x0 y0 x1 y1)[k]? =
      some (linePoint steep (x0 + k) (y0 + (if y0 < y1 then 1 else -1) * j)) := fun steep => by
    rw [lineOrdered, if_neg (not_lt.mpr hx)]
    exact hcell steep
  refine ⟨j, hlow, hhigh, ?_, fun hsteep => ?_⟩
  · rw [lineCells_flat (by rwa [habs])]
    exact hwalk false
  · rw [lineCells_steep (by rwa [habs])]
    exact hwalk true

/-- Settles O32: the same cells are plotted in the same order. -/
theorem lineDirectionSymmetric : Obligations.LineDirectionSymmetric := by
  intro x0 y0 x1 y1 c s
  refine ⟨lineCells_swap x0 y0 x1 y1, ?_⟩
  rw [exec, exec, execDrawLine, execDrawLine, lineCells_swap]

/-- Settles O33: each edge is a horizontal or a vertical line, two of them drawn from their far end. -/
theorem rectangleOutlineIsItsBorder : Obligations.RectangleOutlineIsItsBorder := by
  intro x y w h pt hw hh
  have hx : x ≤ x + w - 1 := by omega
  have hy : y ≤ y + h - 1 := by omega
  rw [rectCells, lineCells_swap (x + w - 1) (y + h - 1) x, lineCells_swap x (y + h - 1) x]
  simp only [List.mem_append, mem_lineCells_horizontal hx, mem_lineCells_vertical hy]
  tauto

end Sys2Proof.Machine
end

section
/-! SUPPORT. The drawing requests on a configured device (42_raster_primitives, 43_raster_circles, 45_text):
the one equation of each of them, and the statements about what they send. -/

namespace Sys2Proof.Machine

/-! ## The clipped rectangle -/

theorem DeviceState.contains_iff {d : DeviceState} {x y : Int} :
    d.contains x y = true ↔ 0 ≤ x ∧ x < d.width ∧ 0 ≤ y ∧ y < d.height := decide_eq_true_iff

theorem DeviceState.circleAccept_iff {d : DeviceState} {x y r : Int} :
    d.circleAccept x y r = true ↔
      1 ≤ r ∧ 0 ≤ x - r ∧ 0 ≤ y - r ∧ x + r ≤ d.width - 1 ∧ y + r ≤ d.height - 1 := decide_eq_true_iff

/-- The rectangle's cells on the device, corner by corner (42_raster_primitives R205). -/
theorem DeviceState.clipRect_eq_some_iff {d : DeviceState} {x y w h : Int} {c : Window Int} :
    d.clipRect x y w h = some c ↔ (0 < w ∧ 0 < h) ∧
      c = ⟨max x 0, max y 0, min (x + w - 1) (d.width - 1), min (y + h - 1) (d.height - 1)⟩ ∧
      c.x1 ≤ c.x2 ∧ c.y1 ≤ c.y2 := by
  simp only [DeviceState.clipRect]
  split_ifs with hsize hoff
  · exact iff_of_false nofun (by omega)
  · refine iff_of_false nofun ?_
    rintro ⟨-, rfl, hx, hy⟩
    exact hoff.elim (not_lt.mpr hx) (not_lt.mpr hy)
  · rw [Option.some.injEq]
    refine ⟨?_, fun ⟨_, hc, _⟩ => hc.symm⟩
    rintro rfl
    exact ⟨by omega, rfl, not_lt.mp fun h => hoff (.inl h), not_lt.mp fun h => hoff (.inr h)⟩

/-- Settles O28: the clip's corners are the ends of the rectangle or of the device, whichever is nearer. -/
theorem clipRectIsIntersection : Obligations.ClipRectIsIntersection := by
  intro d x y w h pt
  simp only [DeviceState.clipRect_eq_some_iff, DeviceState.contains_iff]
  constructor
  · rintro ⟨c, ⟨-, rfl, -⟩, hin⟩
    simp only at hin
    omega
  · intro hin
    refine ⟨_, ⟨by omega, rfl, ?_⟩, ?_⟩
    · simp only
      omega
    · simp only
      omega

/-! ## A burst of GRAM words -/

/-- The events of a window and of one word for each of its cells (42_raster_primitives R206). -/
def burstEvents (p : Params) (c : Color) (w : Window Int) : List Event :=
  windowEvents p w ++ List.replicate (windowCells w) (.data c)

/-- A plot is the burst of its one-cell window (42_raster_primitives R200). -/
theorem pixelEvents_eq_burst (p : Params) (c : Color) (pt : Point) :
    pixelEvents p c pt = burstEvents p c (cellWindow pt) := by
  simp [pixelEvents, burstEvents, windowCells, cellWindow]

theorem windowCells_eq {w : Window Int} (hx : w.x1 ≤ w.x2) (hy : w.y1 ≤ w.y2) :
    windowCells w = windowCols w * windowRows w := Int.toNat_mul (by omega) (by omega)

/-- Advances move the cursor alone (40_transport R150). -/
theorem DeviceState.advanceTimes_eq (d : DeviceState) (n : Nat) :
    d.advanceTimes n = { d with
      cx := ((fun c : Int × Int => advance d.win c.1 c.2)^[n] (d.cx, d.cy)).1
      cy := ((fun c : Int × Int => advance d.win c.1 c.2)^[n] (d.cx, d.cy)).2 } := by
  induction n generalizing d with
  | zero => rfl
  | succ n ih => exact ih d.advanceCursor

/-- As many words as the window has cells bring the cursor back to its origin (40_transport R151). -/
theorem DeviceState.setWindow_advanceTimes_cells (d : DeviceState) {w : Window Int} (hx : w.x1 ≤ w.x2)
    (hy : w.y1 ≤ w.y2) : (d.setWindow w).advanceTimes (windowCells w) = d.setWindow w := by
  have hback : (fun c : Int × Int => advance w c.1 c.2)^[windowCells w] (w.x1, w.y1) = (w.x1, w.y1) := by
    rw [windowCells_eq hx hy]
    exact cursorAfter_cells hx hy
  rw [DeviceState.advanceTimes_eq, DeviceState.setWindow_win, DeviceState.setWindow_cx,
    DeviceState.setWindow_cy, hback]
  rfl

/-! ## The requests -/

section Configured

variable {s : State} {d : DeviceState} (hd : s.enc.dev = some d)
include hd

/-- DRAW_PIXEL (42_raster_primitives R201). -/
theorem exec_drawPixel_configured (x y : Int) (c : Color) :
    exec (.drawPixel x y c) s = .next
      (if d.contains x y then s.plotted d [⟨x, y⟩] c else s.logged rangeError 0x6) := by
  rw [← State.plotCells_eq _ c hd]
  exact congrArg Host.Outcome.next (State.withDevice_some _ _ hd)

/-- FILL_RECT of a rectangle that meets the device (42_raster_primitives R206). -/
theorem exec_fillRect_clipped {x y w h : Int} {win : Window Int} (c : Color)
    (hclip : d.clipRect x y w h = some win) :
    exec (.fillRect x y w h c) s =
      .next (s.sent (burstEvents s.par c win) (d.setWindow win) s.par.regGram) := by
  obtain ⟨-, -, hx, hy⟩ := DeviceState.clipRect_eq_some_iff.mp hclip
  rw [exec, execFillRect, State.withDevice_some _ _ hd, hclip]
  simp only [State.setWindowCore_eq hd, State.sent_emitDataTimes,
    DeviceState.setWindow_advanceTimes_cells d hx hy, burstEvents]

/-- FILL_RECT of an empty rectangle or one off the device (42_raster_primitives R206). -/
theorem exec_fillRect_empty {x y w h : Int} (c : Color) (hclip : d.clipRect x y w h = none) :
    exec (.fillRect x y w h c) s = .next (s.logged rangeError 0x7) := by
  rw [exec, execFillRect, State.withDevice_some _ _ hd, hclip]
  rfl

/-- DRAW_LINE (42_raster_primitives R211). -/
theorem exec_drawLine_configured (x0 y0 x1 y1 : Int) (c : Color) :
    exec (.drawLine x0 y0 x1 y1 c) s = .next (s.plotted d (lineCells x0 y0 x1 y1) c) := by
  rw [← State.plotCells_eq _ c hd]
  exact congrArg Host.Outcome.next (State.withDevice_some _ _ hd)

/-- DRAW_RECT (42_raster_primitives R215). -/
theorem exec_drawRect_configured (x y w h : Int) (c : Color) :
    exec (.drawRect x y w h c) s = .next
      (if w ≤ 0 ∨ h ≤ 0 then s.logged rangeError 0x9 else s.plotted d (rectCells x y w h) c) := by
  rw [← State.plotCells_eq _ c hd]
  exact congrArg Host.Outcome.next (State.withDevice_some _ _ hd)

/-- DRAW_CIRCLE (43_raster_circles R231). -/
theorem exec_drawCircle_configured (x y r : Int) (c : Color) :
    exec (.drawCircle x y r c) s = .next
      (if d.circleAccept x y r then s.plotted d (circleCells x y r) c else s.logged rangeError 0xA) := by
  rw [← State.plotCells_eq _ c hd]
  exact congrArg Host.Outcome.next (State.withDevice_some _ _ hd)

/-- FILL_CIRCLE (43_raster_circles R235). -/
theorem exec_fillCircle_configured (x y r : Int) (c : Color) :
    exec (.fillCircle x y r c) s = .next
      (if d.circleAccept x y r then s.plotted d (fillCircleCells x y r) c else s.logged rangeError 0xB) := by
  rw [← State.plotCells_eq _ c hd]
  exact congrArg Host.Outcome.next (State.withDevice_some _ _ hd)

/-- Drawn text is its plots and the pen (45_text R306). -/
theorem State.drawText_eq (drawn : List Point × Point) (c : Color) :
    s.drawText drawn c = (s.plotted d drawn.1 c).withPen drawn.2 := by
  rw [State.drawText, State.plotCells_eq _ c hd, State.setPen_eq]

/-- DRAW_CHAR_FIXED (45_text R293). -/
theorem exec_drawCharFixed_configured (hfont : s.par.fixedFont.wf = true) (x y : Int) (ch : Byte) (c : Color)
    (size : Int) :
    exec (.drawCharFixed x y ch c size) s = .next
      (if size < 1 then s.logged rangeError 0xC
       else (s.plotted d (fixedChar s.par.fixedFont size.toNat ⟨x, y⟩ ch).1 c).withPen
        (fixedChar s.par.fixedFont size.toNat ⟨x, y⟩ ch).2) := by
  rw [← State.drawText_eq hd]
  exact (if_pos hfont).trans (congrArg Host.Outcome.next (State.withDevice_some _ _ hd))

/-- DRAW_STRING_FIXED (45_text R294). -/
theorem exec_drawStringFixed_configured (hfont : s.par.fixedFont.wf = true) (x y : Int) (c : Color)
    (size : Int) (payload : List Byte) :
    exec (.drawStringFixed x y c size payload) s = .next
      (if size < 1 then s.logged rangeError 0xD
       else (s.plotted d (fixedString s.par.fixedFont size.toNat payload ⟨x, y⟩).1 c).withPen
        (fixedString s.par.fixedFont size.toNat payload ⟨x, y⟩).2) := by
  rw [← State.drawText_eq hd]
  exact (if_pos hfont).trans (congrArg Host.Outcome.next (State.withDevice_some _ _ hd))

/-- DRAW_CHAR_GFX (45_text R302). -/
theorem exec_drawCharGfx_configured (hfont : s.par.gfxFont.wf = true) (x y : Int) (ch : Byte) (c : Color) :
    exec (.drawCharGfx x y ch c) s = .next
      ((s.plotted d (gfxChar s.par.gfxFont ⟨x, y⟩ ch).1 c).withPen
        (gfxChar s.par.gfxFont ⟨x, y⟩ ch).2) := by
  rw [← State.drawText_eq hd]
  exact (if_pos hfont).trans (congrArg Host.Outcome.next (State.withDevice_some _ _ hd))

/-- DRAW_STRING_GFX (45_text R303). -/
theorem exec_drawStringGfx_configured (hfont : s.par.gfxFont.wf = true) (x y : Int) (c : Color)
    (payload : List Byte) :
    exec (.drawStringGfx x y c payload) s = .next
      ((s.plotted d (gfxString s.par.gfxFont x payload ⟨x, y⟩).1 c).withPen
        (gfxString s.par.gfxFont x payload ⟨x, y⟩).2) := by
  rw [← State.drawText_eq hd]
  exact (if_pos hfont).trans (congrArg Host.Outcome.next (State.withDevice_some _ _ hd))

end Configured

/-- One plot on the device (42_raster_primitives R200). -/
theorem State.plotted_singleton (s : State) {d : DeviceState} {pt : Point} (c : Color)
    (h : d.contains pt.x pt.y = true) :
    s.plotted d [pt] c =
      s.sent (pixelEvents s.par c pt) { d with win := cellWindow pt, cx := pt.x, cy := pt.y }
        s.par.regGram := by
  simp [State.plotted, h]

/-! ## The statements -/

/-- Settles O26: the cell is on the device, so that its 14 events are sent. -/
theorem drawPixelSendsOneCell : Obligations.DrawPixelSendsOneCell := by
  intro x y c s d hd hx0 hx hy0 hy
  have hin : d.contains x y = true := DeviceState.contains_iff.mpr ⟨hx0, hx, hy0, hy⟩
  rw [exec_drawPixel_configured hd, if_pos hin, State.plotted_singleton s (pt := ⟨x, y⟩) c hin]
  rfl

/-- Settles O27: the clip is the window, and its burst brings the cursor back. -/
theorem fillRectSendsOneBurst : Obligations.FillRectSendsOneBurst := by
  intro x y w h c s d hd x1 y1 x2 y2 hw hh hx hy
  exact exec_fillRect_clipped hd c (DeviceState.clipRect_eq_some_iff.mpr ⟨⟨hw, hh⟩, rfl, hx, hy⟩)

/-- Settles O29: each shape plots its list of cells, and the lists are those of the rules. -/
theorem shapesPlotTheirCells : Obligations.ShapesPlotTheirCells := by
  refine ⟨fun s d c hd => ⟨exec_drawLine_configured hd (c := c), fun x y w h hw hh => ?_,
    fun x y r h1 h2 h3 h4 h5 => ?_⟩, fun _ _ _ _ => rfl, fun _ _ _ => ⟨rfl, rfl⟩⟩
  · rw [exec_drawRect_configured hd, if_neg (by omega)]
  · have haccept : d.circleAccept x y r = true := DeviceState.circleAccept_iff.mpr ⟨h1, h2, h3, h4, h5⟩
    rw [exec_drawCircle_configured hd, exec_fillCircle_configured hd, if_pos haccept, if_pos haccept]
    exact ⟨rfl, rfl⟩

end Sys2Proof.Machine
end

section
/-! SUPPORT. What a drawing request leaves in the framebuffer (42_raster_primitives R200, R207, 45_text R305):
every drawing request sends the bursts of a list of windows, a burst paints its window at the decoder, and
paintings with one colour compose. -/

namespace Sys2Proof.Machine

/-! ## Painting at the decoder -/

/-- `d'` is `d` with the cells `S` of the framebuffer holding `c`: no fault, every other cell, the register
mirror and the frames as they were, and the dirty flag raised exactly when a cell of `S` held something else
(20_memory R74). -/
structure Dec.Painted (p : Params) (c : Color) (S : Nat → Nat → Prop) (d d' : Dec) : Prop where
  err : d'.err = d.err
  regs : d'.regs = d.regs
  frames : d'.frames = d.frames
  inside : ∀ x y : Nat, x < p.fbW → y < p.fbH → S x y → d'.cell p x y = some c
  outside : ∀ x y : Nat, x < p.fbW → y < p.fbH → ¬ S x y → d'.cell p x y = d.cell p x y
  dirty : d'.dirty = true ↔
    d.dirty = true ∨ ∃ x y : Nat, x < p.fbW ∧ y < p.fbH ∧ S x y ∧ d.cell p x y ≠ some c

namespace Dec.Painted

variable {p : Params} {c : Color} {S T : Nat → Nat → Prop} {d d₁ d₂ : Dec}

/-- A decoder that keeps fault, memories, frames and dirty flag has painted nothing. -/
theorem of_same (herr : d₁.err = d.err) (hregs : d₁.regs = d.regs) (hframes : d₁.frames = d.frames)
    (hfb : d₁.fb = d.fb) (hdirty : d₁.dirty = d.dirty) : Dec.Painted p c (fun _ _ => False) d d₁ where
  err := herr
  regs := hregs
  frames := hframes
  inside _ _ _ _ := False.elim
  outside _ _ _ _ _ := by rw [Dec.cell, hfb, Dec.cell]
  dirty := by simp [hdirty]

theorem congr (h : Dec.Painted p c S d d₁) (hST : ∀ x y, S x y ↔ T x y) : Dec.Painted p c T d d₁ := by
  obtain rfl : S = T := funext₂ fun x y => propext (hST x y)
  exact h

/-- Two paintings with one colour are the painting of both sets. -/
theorem trans (h₁ : Dec.Painted p c S d d₁) (h₂ : Dec.Painted p c T d₁ d₂) :
    Dec.Painted p c (fun x y => S x y ∨ T x y) d d₂ where
  err := h₂.err.trans h₁.err
  regs := h₂.regs.trans h₁.regs
  frames := h₂.frames.trans h₁.frames
  inside x y hx hy hin := by
    by_cases hT : T x y
    · exact h₂.inside x y hx hy hT
    · rw [h₂.outside x y hx hy hT]
      exact h₁.inside x y hx hy (hin.resolve_right hT)
  outside x y hx hy hout := by
    obtain ⟨hS, hT⟩ := not_or.mp hout
    rw [h₂.outside x y hx hy hT, h₁.outside x y hx hy hS]
  dirty := by
    rw [h₂.dirty, h₁.dirty, or_assoc]
    refine or_congr_right ⟨?_, ?_⟩
    · rintro (⟨x, y, hx, hy, hS, hne⟩ | ⟨x, y, hx, hy, hT, hne⟩)
      · exact ⟨x, y, hx, hy, .inl hS, hne⟩
      · have hS : ¬ S x y := fun hS => hne (h₁.inside x y hx hy hS)
        exact ⟨x, y, hx, hy, .inr hT, h₁.outside x y hx hy hS ▸ hne⟩
    · rintro ⟨x, y, hx, hy, hin, hne⟩
      by_cases hS : S x y
      · exact .inl ⟨x, y, hx, hy, hS, hne⟩
      · exact .inr ⟨x, y, hx, hy, hin.resolve_left hS, (h₁.outside x y hx hy hS).symm ▸ hne⟩

/-- The dirty flag is raised exactly when some cell of the framebuffer changed (20_memory R74). -/
theorem dirty_iff_changed (h : Dec.Painted p c S d d₁) : d₁.dirty = true ↔
    d.dirty = true ∨ ∃ x y : Nat, x < p.fbW ∧ y < p.fbH ∧ d₁.cell p x y ≠ d.cell p x y := by
  rw [h.dirty]
  refine or_congr_right (exists₂_congr fun x y => and_congr_right fun hx => and_congr_right fun hy => ?_)
  by_cases hS : S x y
  · rw [h.inside x y hx hy hS]
    exact (and_iff_right hS).trans ne_comm
  · rw [h.outside x y hx hy hS]
    exact iff_of_false (fun hin => hS hin.1) fun hne => hne rfl

end Dec.Painted

/-- A framebuffer write paints its cell (20_memory R74). -/
theorem Dec.painted_fbWrite {p : Params} {x y : Nat} (c : Color) (d : Dec) (hx : x < p.fbW) (hy : y < p.fbH) :
    Dec.Painted p c (fun a b => a = x ∧ b = y) d (d.fbWrite p x y c) where
  err := rfl
  regs := rfl
  frames := rfl
  inside a b ha _ hin := by rw [Dec.fbWrite_cell c d hx ha, if_pos hin]
  outside a b ha _ hout := by rw [Dec.fbWrite_cell c d hx ha, if_neg hout]
  dirty := by
    rw [Dec.fbWrite_dirty, dirtyAfterWrite, Bool.or_eq_true, decide_eq_true_iff]
    refine or_congr_right ⟨fun hne => ⟨x, y, hx, hy, ⟨rfl, rfl⟩, hne⟩, ?_⟩
    rintro ⟨_, _, -, -, ⟨rfl, rfl⟩, hne⟩
    exact hne

/-! ## A burst at the decoder -/

/-- The decoder inside a burst through window `w`, after `n` words of it: it takes GRAM words and its cursor
is where the addressing rule has brought it. -/
def Dec.InBurst (p : Params) (w : Window Int) (n : Nat) (d : Dec) : Prop :=
  d.err = none ∧ d.latched = some p.regGram ∧ d.partialByte = none ∧
    mapWindow (fun v => (v.toNat : Int)) d.win = w ∧ ((d.cx : Int), (d.cy : Int)) = cursorAfter w n

/-- The events of a window open its burst and paint nothing (41_encoder_config R182). -/
theorem Dec.pins_windowEvents_inBurst {p : Params} {d : Dec} {w : Window Int} (c : Color) (hwf : p.wf = true)
    (herr : d.err = none) (hw : windowInFramebuffer p w) :
    ∃ d', Dec.pins p ((windowEvents p w).flatMap framing) d = (d', none) ∧ d'.InBurst p w 0 ∧
      Dec.Painted p c (fun _ _ => False) d d' := by
  obtain ⟨-, hfbW, -, hfbH⟩ := Params.wf_framebuffer hwf
  obtain ⟨hx0, hx12, hx, hy0, hy12, hy⟩ := hw
  have hleft := coordWord_toNat hx0 (by omega)
  have htop := coordWord_toNat hy0 (by omega)
  have hright := coordWord_toNat (hx0.trans hx12) (by omega)
  have hbottom := coordWord_toNat (hy0.trans hy12) (by omega)
  refine ⟨_, Dec.pins_windowEvents hwf herr w, ⟨herr, rfl, rfl, ?_, ?_⟩, .of_same rfl rfl rfl rfl rfl⟩
  · simp only [mapWindow, hleft, htop, hright, hbottom]
  · rw [cursorAfter_zero, hleft, htop]

/-- One word of a burst paints the cell its cursor stands on (44_decoder R261). -/
theorem Dec.InBurst.pins_data {p : Params} {w : Window Int} {n : Nat} {d : Dec} (h : d.InBurst p w n)
    (hw : windowInFramebuffer p w) (c : Color) :
    ∃ d', Dec.pins p (framing (.data c)) d = (d', none) ∧ d'.InBurst p w (n + 1) ∧
      Dec.Painted p c (fun x y => cursorAfter w n = ((x : Int), (y : Int))) d d' := by
  obtain ⟨herr, hlatched, hpartial, hwindow, hcursor⟩ := h
  obtain ⟨-, hx12, hfbW, -, hy12, hfbH⟩ := hw
  have hmem := cursorAfter_mem hx12 hy12 n
  rw [← hcursor] at hmem
  have hwin : d.cursorInWindow = true := by
    simp only [← hwindow, mapWindow, Nat.cast_le] at hmem
    exact decide_eq_true hmem
  obtain ⟨hx, hy⟩ : d.cx < p.fbW ∧ d.cy < p.fbH := by omega
  have hpins := Dec.pins_gram c herr hlatched hpartial hwin (decide_eq_true ⟨hx, hy⟩)
  refine ⟨_, hpins, ⟨herr, hlatched, rfl, hwindow, ?_⟩, ?_⟩
  · rw [cursorAfter_succ, ← hcursor]
    obtain ⟨hcx, hcy⟩ := advance_agrees hwindow rfl rfl
    exact Prod.ext hcx hcy
  · refine .congr (.trans (Dec.painted_fbWrite c d hx hy) (.of_same rfl rfl rfl rfl rfl)) fun x y => ?_
    rw [or_false, ← hcursor, Prod.mk.injEq, Nat.cast_inj, Nat.cast_inj, eq_comm, eq_comm (a := y)]

/-- The words of a burst paint the cells the cursor visits. -/
theorem Dec.InBurst.pins_words {p : Params} {w : Window Int} {n : Nat} {d : Dec} (h : d.InBurst p w n)
    (hw : windowInFramebuffer p w) (c : Color) (k : Nat) :
    ∃ d', Dec.pins p ((List.replicate k (Event.data c)).flatMap framing) d = (d', none) ∧
      Dec.Painted p c (fun x y => ∃ i < k, cursorAfter w (n + i) = ((x : Int), (y : Int))) d d' := by
  induction k generalizing n d with
  | zero => exact ⟨d, rfl, (Dec.Painted.of_same rfl rfl rfl rfl rfl).congr (by simp)⟩
  | succ k ih =>
    obtain ⟨d₁, hpins₁, hburst, hpaint₁⟩ := h.pins_data hw c
    obtain ⟨d₂, hpins₂, hpaint₂⟩ := ih hburst
    refine ⟨d₂, ?_, (hpaint₁.trans hpaint₂).congr fun x y => ?_⟩
    · rw [List.replicate_succ, List.flatMap_cons]
      exact Dec.pins_append_quiet hpins₁ hpins₂
    · simp only [Nat.exists_lt_succ_left, Nat.add_zero, Nat.add_right_comm n 1, Nat.add_assoc]

/-- As many advances as the window has cells visit exactly its cells (40_transport R151). -/
theorem exists_cursorAfter_iff {p : Params} {w : Window Int} (hw : windowInFramebuffer p w) (x y : Nat) :
    (∃ i < windowCells w, cursorAfter w i = ((x : Int), (y : Int))) ↔ windowHas w x y := by
  obtain ⟨hx0, hx12, -, hy0, hy12, -⟩ := hw
  rw [windowCells_eq hx12 hy12]
  constructor
  · rintro ⟨i, -, hcursor⟩
    by_contra hout
    exact cursorAfter_ne_outside hx12 hy12 hout i hcursor
  · intro hin
    have hlt := cellNumber_lt hin hx0 hy0
    exact ⟨cellNumber w x y, hlt, (cursorAfter_eq_iff hin hx0 hy0 hlt).mpr rfl⟩

/-- A burst paints the cells of its window (42_raster_primitives R207). -/
theorem Dec.pins_burst {p : Params} {d : Dec} {w : Window Int} (c : Color) (hwf : p.wf = true)
    (herr : d.err = none) (hw : windowInFramebuffer p w) :
    ∃ d', Dec.pins p ((burstEvents p c w).flatMap framing) d = (d', none) ∧
      Dec.Painted p c (windowHas w) d d' := by
  obtain ⟨d₁, hpins₁, hburst, hpaint₁⟩ := Dec.pins_windowEvents_inBurst c hwf herr hw
  obtain ⟨d₂, hpins₂, hpaint₂⟩ := hburst.pins_words hw c (windowCells w)
  refine ⟨d₂, ?_, (hpaint₁.trans hpaint₂).congr fun x y => ?_⟩
  · rw [burstEvents, List.flatMap_append]
    exact Dec.pins_append_quiet hpins₁ hpins₂
  · simp only [false_or, Nat.zero_add, exists_cursorAfter_iff hw]

/-- Bursts one after another paint the cells of all their windows. -/
theorem Dec.pins_bursts {p : Params} {d : Dec} (c : Color) (hwf : p.wf = true) (herr : d.err = none)
    {ws : List (Window Int)} (hws : ∀ w ∈ ws, windowInFramebuffer p w) :
    Dec.Painted p c (fun x y => ∃ w ∈ ws, windowHas w x y) d
      (Dec.pins p ((ws.flatMap (burstEvents p c)).flatMap framing) d).1 := by
  induction ws generalizing d with
  | nil => exact (Dec.Painted.of_same rfl rfl rfl rfl rfl).congr (by simp)
  | cons w ws ih =>
    obtain ⟨hw, hws⟩ := List.forall_mem_cons.mp hws
    obtain ⟨d₁, hpins, hpaint⟩ := Dec.pins_burst c hwf herr hw
    rw [List.flatMap_cons, List.flatMap_append, Dec.pins_append, hpins]
    refine (hpaint.trans (ih (hpaint.err.trans herr) hws)).congr fun x y => ?_
    rw [List.exists_mem_cons_iff]

/-! ## The windows of a drawing request -/

/-- `t` is `s` but for the front end and the bursts of `ws` on the wire. -/
def State.SendsBursts (s : State) (c : Color) (ws : List (Window Int)) (t : State) : Prop :=
  t.par = s.par ∧ t.dec = s.dec ∧ t.wire = s.wire ++ (ws.flatMap (burstEvents s.par c)).flatMap framing

/-- `t` is `s` after a drawing on device `d` of the cells `S`: as bursts of windows on the device, which
together have the cells of `S` on the device (42_raster_primitives R200). -/
def State.Draws (s : State) (d : DeviceState) (c : Color) (S : Point → Prop) (t : State) : Prop :=
  ∃ ws, s.SendsBursts c ws t ∧ (∀ w ∈ ws, d.Holds w) ∧
    ∀ x y : Nat, (∃ w ∈ ws, windowHas w x y) ↔ S ⟨x, y⟩ ∧ d.contains x y = true

theorem windowHas_cellWindow {pt : Point} {x y : Nat} :
    windowHas (cellWindow pt) x y ↔ (⟨x, y⟩ : Point) = pt := by
  obtain ⟨px, py⟩ := pt
  simp only [windowHas, cellWindow, Point.mk.injEq]
  omega

/-- Plotted cells are bursts of one-cell windows (42_raster_primitives R200). -/
theorem State.draws_plotted (s : State) (d : DeviceState) (c : Color) (cells : List Point) :
    s.Draws d c (· ∈ cells) (s.plotted d cells c) := by
  refine ⟨(cells.filter fun pt => d.contains pt.x pt.y).map cellWindow, ?_, ?_, fun x y => ?_⟩
  · have hevents : ∀ shown : List Point, (shown.map cellWindow).flatMap (burstEvents s.par c) =
        shown.flatMap (pixelEvents s.par c) := fun shown => by
      rw [List.flatMap_map]
      exact List.flatMap_congr fun pt _ => (pixelEvents_eq_burst s.par c pt).symm
    rw [State.SendsBursts, hevents, State.plotted]
    generalize cells.filter (fun pt => d.contains pt.x pt.y) = shown
    cases hlast : shown.getLast? with
    | none => simp [List.getLast?_eq_none_iff.mp hlast]
    | some pt => exact ⟨rfl, rfl, rfl⟩
  · intro w hw
    obtain ⟨pt, hpt, rfl⟩ := List.mem_map.mp hw
    exact DeviceState.holds_cellWindow (List.mem_filter.mp hpt).2
  · simp [windowHas_cellWindow]

/-- A burst of a window on the device. -/
theorem State.draws_burst (s : State) {d : DeviceState} (c : Color) {w : Window Int} (hw : d.Holds w)
    (dev : DeviceState) :
    s.Draws d c (fun pt => w.x1 ≤ pt.x ∧ pt.x ≤ w.x2 ∧ w.y1 ≤ pt.y ∧ pt.y ≤ w.y2)
      (s.sent (burstEvents s.par c w) dev s.par.regGram) := by
  refine ⟨[w], ⟨rfl, rfl, by simp⟩, by simpa using hw, fun x y => ?_⟩
  simp only [List.mem_singleton, exists_eq_left, windowHas, DeviceState.contains_iff]
  simp only [DeviceState.Holds] at hw
  omega

/-- A dropped request draws nothing (60_exceptions R326). -/
theorem State.draws_logged (s : State) (d : DeviceState) (c : Color) (code : BitVec 8) (op : BitVec 4) :
    s.Draws d c (fun _ => False) (s.logged code op) :=
  ⟨[], ⟨rfl, rfl, by simp [State.logged]⟩, by simp, by simp⟩

theorem State.Draws.withPen {s t : State} {d : DeviceState} {c : Color} {S : Point → Prop}
    (h : s.Draws d c S t) (pen : Point) : s.Draws d c S (t.withPen pen) := h

/-- What is drawn is told by the cells on the device. -/
theorem State.Draws.congr {s t : State} {d : DeviceState} {c : Color} {S T : Point → Prop}
    (h : s.Draws d c S t) (hST : ∀ pt, d.contains pt.x pt.y = true → (S pt ↔ T pt)) : s.Draws d c T t := by
  obtain ⟨ws, hsends, hholds, hcells⟩ := h
  exact ⟨ws, hsends, hholds, fun x y => (hcells x y).trans (and_congr_left (hST ⟨x, y⟩))⟩

/-- A request with an acceptance test: accepted it draws, else it is dropped. -/
theorem State.Draws.acceptedIf {s t : State} {d : DeviceState} {c : Color} {S : Point → Prop} {ok : Prop}
    [Decidable ok] (h : s.Draws d c S t) (code : BitVec 8) (op : BitVec 4) :
    s.Draws d c (fun pt => ok ∧ S pt) (if ok then t else s.logged code op) := by
  split_ifs with hok
  · exact h.congr fun _ _ => (and_iff_right hok).symm
  · exact (s.draws_logged d c code op).congr fun _ _ => (iff_false_left not_false).mpr fun hin => hok hin.1

/-- A request with a rejection test: rejected it is dropped, else it draws. -/
theorem State.Draws.droppedIf {s t : State} {d : DeviceState} {c : Color} {S : Point → Prop} {bad : Prop}
    [Decidable bad] (h : s.Draws d c S t) (code : BitVec 8) (op : BitVec 4) :
    s.Draws d c (fun pt => ¬ bad ∧ S pt) (if bad then s.logged code op else t) := by
  rw [← ite_not]
  exact h.acceptedIf code op

/-- FILL_RECT draws the rectangle's cells (42_raster_primitives R205). -/
theorem exec_fillRect_draws {s : State} {d : DeviceState} (hd : s.enc.dev = some d) (x y w h : Int)
    (c : Color) :
    ∃ t, exec (.fillRect x y w h c) s = .next t ∧
      s.Draws d c (fun pt => x ≤ pt.x ∧ pt.x ≤ x + w - 1 ∧ y ≤ pt.y ∧ pt.y ≤ y + h - 1) t := by
  have hclipped := clipRectIsIntersection d x y w h
  cases hclip : d.clipRect x y w h with
  | none =>
    refine ⟨_, exec_fillRect_empty hd c hclip, (s.draws_logged d c _ _).congr fun pt hpt => ?_⟩
    simpa [hclip, hpt] using hclipped pt
  | some win =>
    refine ⟨_, exec_fillRect_clipped hd c hclip,
      (s.draws_burst c (DeviceState.holds_clipRect hclip) _).congr fun pt hpt => ?_⟩
    simpa [hclip, hpt] using hclipped pt

/-- The fonts of well-formed parameters (45_text R291, R300). -/
theorem Params.wf_fonts {p : Params} (h : p.wf = true) : p.fixedFont.wf = true ∧ p.gfxFont.wf = true := by
  simp only [Params.wf, Bool.and_eq_true] at h
  obtain ⟨-, -, -, -, hfonts⟩ := h
  exact hfonts

/-- Each of the ten drawing requests completes and draws the cells it asks for. -/
theorem exec_draws {i : Instr} {c : Color} {d : DeviceState} {s : State} (hi : paintColor i = some c)
    (hwf : s.par.wf = true) (hd : s.enc.dev = some d) :
    ∃ t, exec i s = .next t ∧ s.Draws d c (asksFor s.par d · i) t := by
  obtain ⟨hfixed, hgfx⟩ := Params.wf_fonts hwf
  have hplots := s.draws_plotted d c
  cases i <;> cases hi
  case drawPixel.refl x y =>
    refine ⟨_, exec_drawPixel_configured hd x y c, ((hplots _).acceptedIf _ _).congr fun pt hpt => ?_⟩
    rw [List.mem_singleton]
    refine and_iff_right_of_imp ?_
    rintro rfl
    exact hpt
  case fillRect.refl x y w h => exact exec_fillRect_draws hd x y w h c
  case drawLine.refl x0 y0 x1 y1 => exact ⟨_, exec_drawLine_configured hd x0 y0 x1 y1 c, hplots _⟩
  case drawRect.refl x y w h =>
    refine ⟨_, exec_drawRect_configured hd x y w h c, ((hplots _).droppedIf _ _).congr fun pt _ => ?_⟩
    rw [not_or, not_le, not_le, and_assoc]
    rfl
  case drawCircle.refl x y r => exact ⟨_, exec_drawCircle_configured hd x y r c, (hplots _).acceptedIf _ _⟩
  case fillCircle.refl x y r => exact ⟨_, exec_fillCircle_configured hd x y r c, (hplots _).acceptedIf _ _⟩
  case drawCharFixed.refl x y ch size =>
    exact ⟨_, exec_drawCharFixed_configured hd hfixed x y ch c size,
      (((hplots _).withPen _).droppedIf _ _).congr fun pt _ => and_congr_left fun _ => not_lt⟩
  case drawStringFixed.refl x y size payload =>
    exact ⟨_, exec_drawStringFixed_configured hd hfixed x y c size payload,
      (((hplots _).withPen _).droppedIf _ _).congr fun pt _ => and_congr_left fun _ => not_lt⟩
  case drawCharGfx.refl x y ch =>
    exact ⟨_, exec_drawCharGfx_configured hd hgfx x y ch c, (hplots _).withPen _⟩
  case drawStringGfx.refl x y payload =>
    exact ⟨_, exec_drawStringGfx_configured hd hgfx x y c payload, (hplots _).withPen _⟩

/-! ## Carried to its end -/

/-- The wire carried to its end: the decoder has taken its pin actions in order (40_transport R149). -/
theorem State.settle_dec (s : State) : s.settle.dec = (Dec.pins s.par s.wire s.dec).1 := by
  generalize hw : s.wire = wire
  induction wire generalizing s with
  | nil => rw [State.settle_nil hw, Dec.pins_nil]
  | cons a more ih =>
    rw [State.settle_cons hw, State.transportTurn_carries hw, ih _ rfl, Dec.pins_cons]

/-- A window on a device that the framebuffer covers lies in the framebuffer (70_reset R354). -/
theorem DeviceState.Holds.windowInFramebuffer {p : Params} {d : DeviceState} {w : Window Int} (h : d.Holds w)
    (hwidth : d.width ≤ p.fbW) (hheight : d.height ≤ p.fbH) : windowInFramebuffer p w := by
  obtain ⟨hx1, hx12, hx2, hy1, hy12, hy2⟩ := h
  exact ⟨hx1, hx12, by omega, hy1, hy12, by omega⟩

/-- A drawing, carried to its end, has painted its cells on the device. -/
theorem State.Draws.settle_painted {s t : State} {d : DeviceState} {c : Color} {S : Point → Prop}
    (h : s.Draws d c S t) (hwf : s.par.wf = true) (hwire : s.wire = []) (herr : s.dec.err = none)
    (hwidth : d.width ≤ s.par.fbW) (hheight : d.height ≤ s.par.fbH) :
    Dec.Painted s.par c (fun x y => S ⟨x, y⟩ ∧ d.contains x y = true) s.dec t.settle.dec := by
  obtain ⟨ws, ⟨hpar, hdec, hsent⟩, hholds, hcells⟩ := h
  rw [hwire, List.nil_append] at hsent
  rw [State.settle_dec, hpar, hdec, hsent]
  exact (Dec.pins_bursts c hwf herr fun w hw => (hholds w hw).windowInFramebuffer hwidth hheight).congr hcells

/-- Settles O59: the request draws the cells it asks for, and its bursts paint those on the device. -/
theorem drawingPaintsExactlyItsCells : Obligations.DrawingPaintsExactlyItsCells := by
  intro i c d s t hi _ hwf hwire ⟨herr, _⟩ hfit hd hexec
  obtain ⟨hwidth, hheight⟩ := hfit d hd
  obtain ⟨t', hexec', hdraws⟩ := exec_draws hi hwf hd
  obtain rfl := Host.Outcome.next.inj (hexec'.symm.trans hexec)
  have hpaint := hdraws.settle_painted hwf hwire herr hwidth hheight
  exact ⟨fun x y hx hy => ⟨hpaint.inside x y hx hy, hpaint.outside x y hx hy⟩, hpaint.regs, hpaint.frames,
    hpaint.dirty_iff_changed⟩

end Sys2Proof.Machine
end

section
/-! SUPPORT. The midpoint circle (43_raster_circles): the closed form of its loop variables, the outline and
the fill as sets of offsets from the centre, and the statements about them. -/

namespace Sys2Proof.Machine

/-! ## The loop variables -/

/-- The loop variables in closed form on a circle of radius `r` (43_raster_circles R231): `f` weighs the next
x against the circle half a cell inward of y. -/
structure Midpoint.OnCircle (r : Int) (m : Midpoint) : Prop where
  f_eq : m.f = (m.x + 1) * (m.x + 1) + m.y * m.y - m.y - r * r
  ddx_eq : m.ddx = 2 * m.x + 1
  ddy_eq : m.ddy = -2 * m.y

theorem Midpoint.onCircle_start (r : Int) : (Midpoint.start r).OnCircle r where
  f_eq := by simp only [Midpoint.start]; ring
  ddx_eq := rfl
  ddy_eq := rfl

theorem Midpoint.update_of_f_nonneg {m : Midpoint} (h : 0 ≤ m.f) : m.update =
    ⟨m.f + (m.ddy + 2) + (m.ddx + 2), m.ddx + 2, m.ddy + 2, m.x + 1, m.y - 1⟩ := by
  simp [Midpoint.update, h]

theorem Midpoint.update_of_f_neg {m : Midpoint} (h : m.f < 0) : m.update =
    ⟨m.f + (m.ddx + 2), m.ddx + 2, m.ddy, m.x + 1, m.y⟩ := by
  simp [Midpoint.update, not_le.mpr h]

theorem Midpoint.OnCircle.update {r : Int} {m : Midpoint} (h : m.OnCircle r) : m.update.OnCircle r := by
  obtain ⟨hf, hddx, hddy⟩ := h
  rcases lt_or_ge m.f 0 with hneg | hnonneg
  · rw [Midpoint.update_of_f_neg hneg]
    exact ⟨by simp only [hf, hddx]; ring, by simp only [hddx]; ring, hddy⟩
  · rw [Midpoint.update_of_f_nonneg hnonneg]
    exact ⟨by simp only [hf, hddx, hddy]; ring, by simp only [hddx]; ring, by simp only [hddy]; ring⟩

/-- The test of an iteration in closed form (43_raster_circles R231). -/
theorem Midpoint.OnCircle.update_y {r : Int} {m : Midpoint} (h : m.OnCircle r) : m.update.y =
    if m.update.x * m.update.x + m.y * m.y - m.y ≥ r * r then m.y - 1 else m.y := by
  rw [m.update_xy.1]
  rcases lt_or_ge m.f 0 with hneg | hnonneg
  · rw [Midpoint.update_of_f_neg hneg, if_neg (by linarith [h.f_eq])]
  · rw [Midpoint.update_of_f_nonneg hnonneg, if_pos (by linarith [h.f_eq])]

/-- The loop variables after `k` iterations. -/
def Midpoint.after (r : Int) (k : Nat) : Midpoint := Midpoint.update^[k] (Midpoint.start r)

theorem Midpoint.after_succ (r : Int) (k : Nat) : Midpoint.after r (k + 1) = (Midpoint.after r k).update :=
  Function.iterate_succ_apply' ..

theorem Midpoint.onCircle_after (r : Int) (k : Nat) : (Midpoint.after r k).OnCircle r := by
  induction k with
  | zero => exact Midpoint.onCircle_start r
  | succ k ih => exact Midpoint.after_succ r k ▸ ih.update

theorem Midpoint.after_x (r : Int) (k : Nat) : (Midpoint.after r k).x = k := by
  induction k with
  | zero => rfl
  | succ k ih => rw [Midpoint.after_succ, (Midpoint.update_xy _).1, ih, Nat.cast_succ]

/-! ## The iterations -/

/-- An iteration in the list has passed the loop's test, and its cell is that of the next loop variables. -/
theorem midpointWalk_getElem {n k : Nat} {m : Midpoint} {p : Point} (h : (midpointWalk n m)[k]? = some p) :
    (Midpoint.update^[k] m).x < (Midpoint.update^[k] m).y ∧
      p = ⟨(Midpoint.update^[k + 1] m).x, (Midpoint.update^[k + 1] m).y⟩ := by
  induction n generalizing k m with
  | zero => simp [midpointWalk] at h
  | succ n ih =>
    rw [midpointWalk] at h
    split_ifs at h with hlt
    · cases k with
      | zero => exact ⟨hlt, (Option.some.inj h).symm⟩
      | succ k => exact ih (m := m.update) h
    · simp at h

theorem circleIterations_getElem {r : Int} {k : Nat} {p : Point} (h : (circleIterations r)[k]? = some p) :
    (Midpoint.after r k).x < (Midpoint.after r k).y ∧
      p = ⟨(Midpoint.after r (k + 1)).x, (Midpoint.after r (k + 1)).y⟩ := midpointWalk_getElem h

theorem midpointWalk_of_ge {m : Midpoint} (n : Nat) (h : m.y ≤ m.x) : midpointWalk n m = [] := by
  cases n with
  | zero => rfl
  | succ n => rw [midpointWalk, if_neg (not_lt.mpr h)]

/-- Where the bound covers `y - x`, the last iteration is the one that fails the loop's test. -/
theorem midpointWalk_getLast {n : Nat} {m : Midpoint} {p : Point} (hn : m.y - m.x ≤ n)
    (h : (midpointWalk n m).getLast? = some p) : p.y ≤ p.x := by
  induction n generalizing m with
  | zero => simp [midpointWalk] at h
  | succ n ih =>
    rw [midpointWalk] at h
    split_ifs at h with hlt
    · have hcover : m.update.y - m.update.x ≤ n := by have := m.update_xy; omega
      rcases le_or_gt m.update.y m.update.x with hend | hgo
      · rw [midpointWalk_of_ge n hend] at h
        obtain rfl := Option.some.inj h
        exact hend
      · obtain ⟨n, rfl⟩ : ∃ n', n = n' + 1 := ⟨n - 1, by omega⟩
        refine ih hcover ?_
        rw [midpointWalk, if_pos hgo] at h ⊢
        rwa [List.getLast?_cons_cons] at h
    · simp at h

/-- The loop never leaves the square between the start's x and y. -/
theorem mem_midpointWalk {n : Nat} {m : Midpoint} {p : Point} (h : p ∈ midpointWalk n m) :
    (m.x < p.x ∧ p.x ≤ m.y) ∧ m.x ≤ p.y ∧ p.y ≤ m.y := by
  induction n generalizing m with
  | zero => simp [midpointWalk] at h
  | succ n ih =>
    rw [midpointWalk] at h
    split_ifs at h with hlt
    · have hxy := m.update_xy
      rcases List.mem_cons.mp h with rfl | h
      · dsimp only
        omega
      · have := ih h
        omega
    · simp at h

theorem mem_circleIterations {r : Int} {m : Point} (h : m ∈ circleIterations r) :
    (0 < m.x ∧ m.x ≤ r) ∧ 0 ≤ m.y ∧ m.y ≤ r := mem_midpointWalk h

/-- The first iteration, for every radius that has one. -/
theorem circleIterations_zero {r : Int} (hr : 1 ≤ r) :
    (circleIterations r)[0]? = some ⟨1, if 1 + r * r - r ≥ r * r then r - 1 else r⟩ := by
  obtain ⟨n, hn⟩ : ∃ n, r.toNat = n + 1 := ⟨r.toNat - 1, by omega⟩
  have hstart : (Midpoint.start r).x < (Midpoint.start r).y := hr
  have hx : (Midpoint.start r).update.x = 1 := (Midpoint.update_xy _).1
  have hy := (Midpoint.onCircle_start r).update_y
  rw [hx, one_mul] at hy
  rw [circleIterations, hn, midpointWalk, if_pos hstart, hx, hy]
  rfl

/-- Settles O34: neighbouring iterations are neighbouring loop variables, whose test has a closed form. -/
theorem circleIterationsFollowTheMidpoint : Obligations.CircleIterationsFollowTheMidpoint := by
  intro r hr
  refine ⟨circleIterations_zero hr, fun k p q hp hq => ?_, fun p hp => ?_⟩
  · obtain ⟨-, rfl⟩ := circleIterations_getElem hp
    obtain ⟨hlt, rfl⟩ := circleIterations_getElem hq
    rw [Midpoint.after_succ r (k + 1)]
    exact ⟨by rw [Midpoint.after_x, Nat.cast_succ], hlt, (Midpoint.update_xy _).1,
      (Midpoint.onCircle_after r (k + 1)).update_y⟩
  · exact midpointWalk_getLast (by simp only [Midpoint.start]; omega) hp

/-! ## The outline and the fill as offsets from the centre -/

/-- The unsigned offsets `(a, b)` of the outline's cells: the axis points and the iterations, each with its
exchange (43_raster_circles R232). -/
def OutlineOffset (r a b : Int) : Prop :=
  (a = 0 ∧ b = |r|) ∨ (a = |r| ∧ b = 0) ∨
    ∃ m ∈ circleIterations r, (a = m.x ∧ b = m.y) ∨ (a = m.y ∧ b = m.x)

theorem OutlineOffset.exchange {r a b : Int} (h : OutlineOffset r a b) : OutlineOffset r b a := by
  rcases h with ⟨ha, hb⟩ | ⟨ha, hb⟩ | ⟨m, hm, h⟩
  · exact .inr (.inl ⟨hb, ha⟩)
  · exact .inl ⟨hb, ha⟩
  · exact .inr (.inr ⟨m, hm, h.symm.imp And.symm And.symm⟩)

theorem OutlineOffset.bounds {r a b : Int} (h : OutlineOffset r a b) : 0 ≤ a ∧ a ≤ |r| := by
  have hr := abs_nonneg r
  rcases h with ⟨rfl, -⟩ | ⟨rfl, -⟩ | ⟨m, hm, h⟩
  · exact ⟨le_rfl, hr⟩
  · exact ⟨hr, le_rfl⟩
  · have hbounds := mem_circleIterations hm
    have := le_abs_self r
    omega

/-- The reflections of one offset in the two axes are the cells at its unsigned offsets. -/
theorem mem_reflections {cx cy a b : Int} {pt : Point} (ha : 0 ≤ a) (hb : 0 ≤ b) :
    pt ∈ [(⟨cx + a, cy + b⟩ : Point), ⟨cx - a, cy + b⟩, ⟨cx + a, cy - b⟩, ⟨cx - a, cy - b⟩] ↔
      |pt.x - cx| = a ∧ |pt.y - cy| = b := by
  obtain ⟨px, py⟩ := pt
  simp only [List.mem_cons, List.not_mem_nil, or_false, Point.mk.injEq, abs_eq ha, abs_eq hb]
  omega

/-- A span centred on the column `cx` and its mirror in the row `cy`. -/
theorem mem_mirroredSpans {cx cy a b : Int} {pt : Point} (ha : 0 ≤ a) (hb : 0 ≤ b) :
    pt ∈ lineCells (cx - a) (cy + b) (cx + a) (cy + b) ++ lineCells (cx - a) (cy - b) (cx + a) (cy - b) ↔
      |pt.x - cx| ≤ a ∧ |pt.y - cy| = b := by
  have hspan : cx - a ≤ cx + a := by omega
  simp only [List.mem_append, mem_lineCells_horizontal hspan, abs_le, abs_eq hb]
  omega

/-- The eight plots of an iteration are the cells at its offsets, exchanged or not, in every sign. -/
theorem mem_octantCells {cx cy : Int} {m pt : Point} (hx : 0 ≤ m.x) (hy : 0 ≤ m.y) :
    pt ∈ octantCells cx cy m ↔
      (|pt.x - cx| = m.x ∧ |pt.y - cy| = m.y) ∨ (|pt.x - cx| = m.y ∧ |pt.y - cy| = m.x) := by
  rw [← mem_reflections hx hy, ← mem_reflections hy hx, ← List.mem_append]
  rfl

/-- The four spans of an iteration are the rows at each of its offsets, as wide as the other one. -/
theorem mem_spanCells {cx cy : Int} {m pt : Point} (hx : 0 ≤ m.x) (hy : 0 ≤ m.y) :
    pt ∈ spanCells cx cy m ↔
      (|pt.x - cx| ≤ m.x ∧ |pt.y - cy| = m.y) ∨ (|pt.x - cx| ≤ m.y ∧ |pt.y - cy| = m.x) := by
  rw [spanCells, List.append_assoc, List.mem_append, mem_mirroredSpans hy hx, mem_mirroredSpans hx hy, or_comm]

/-- The outline, for every radius. -/
theorem mem_circleCells {cx cy r : Int} {pt : Point} :
    pt ∈ circleCells cx cy r ↔ OutlineOffset r |pt.x - cx| |pt.y - cy| := by
  have haxis : pt ∈ [(⟨cx, cy + r⟩ : Point), ⟨cx, cy - r⟩, ⟨cx + r, cy⟩, ⟨cx - r, cy⟩] ↔
      (|pt.x - cx| = 0 ∧ |pt.y - cy| = |r|) ∨ (|pt.x - cx| = |r| ∧ |pt.y - cy| = 0) := by
    obtain ⟨px, py⟩ := pt
    simp only [List.mem_cons, List.not_mem_nil, or_false, Point.mk.injEq, abs_eq_zero, abs_eq_abs]
    omega
  rw [circleCells, List.mem_append, haxis, List.mem_flatMap, OutlineOffset, or_assoc]
  refine or_congr_right (or_congr_right (exists_congr fun m => and_congr_right fun hm => ?_))
  obtain ⟨⟨hx, -⟩, hy, -⟩ := mem_circleIterations hm
  exact mem_octantCells hx.le hy

/-- Some iteration reaches the outermost row: the first, at y = r, or for r = 1 at x = r. -/
theorem exists_iteration_at_radius {r : Int} (hr : 1 ≤ r) : ∃ m ∈ circleIterations r, m.x = r ∨ m.y = r := by
  refine ⟨_, List.mem_of_getElem? (circleIterations_zero hr), ?_⟩
  dsimp only
  split_ifs with hdown
  · exact .inl (by omega)
  · exact .inr rfl

/-- A row of the fill is as wide as the offsets of the outline in that row. -/
theorem mem_fillCircleCells {cx cy r : Int} {pt : Point} (hr : 1 ≤ r) :
    pt ∈ fillCircleCells cx cy r ↔ ∃ a, |pt.x - cx| ≤ a ∧ OutlineOffset r a |pt.y - cy| := by
  have hcentral : pt ∈ lineCells (cx - r) cy (cx + r) cy ↔ |pt.x - cx| ≤ r ∧ |pt.y - cy| = 0 := by
    rw [mem_lineCells_horizontal (by omega), abs_le, abs_eq_zero]
    omega
  have hspan {m : Point} (hm : m ∈ circleIterations r) : pt ∈ spanCells cx cy m ↔
      (|pt.x - cx| ≤ m.x ∧ |pt.y - cy| = m.y) ∨ (|pt.x - cx| ≤ m.y ∧ |pt.y - cy| = m.x) := by
    obtain ⟨⟨hx, -⟩, hy, -⟩ := mem_circleIterations hm
    exact mem_spanCells hx.le hy
  have habs : |r| = r := abs_of_pos (by omega)
  rw [fillCircleCells, List.mem_append, hcentral, List.mem_flatMap]
  constructor
  · rintro (⟨hdx, hdy⟩ | ⟨m, hm, hpt⟩)
    · exact ⟨r, hdx, .inr (.inl ⟨habs.symm, hdy⟩)⟩
    · rcases (hspan hm).mp hpt with ⟨hdx, hdy⟩ | ⟨hdx, hdy⟩
      · exact ⟨m.x, hdx, .inr (.inr ⟨m, hm, .inl ⟨rfl, hdy⟩⟩)⟩
      · exact ⟨m.y, hdx, .inr (.inr ⟨m, hm, .inr ⟨rfl, hdy⟩⟩)⟩
  · rintro ⟨a, hdx, ⟨rfl, hdy⟩ | ⟨rfl, hdy⟩ | ⟨m, hm, hoffset⟩⟩
    · obtain ⟨m, hm, hreach⟩ := exists_iteration_at_radius hr
      have hbounds := mem_circleIterations hm
      exact .inr ⟨m, hm, (hspan hm).mpr (by omega)⟩
    · exact .inl ⟨habs ▸ hdx, hdy⟩
    · exact .inr ⟨m, hm, (hspan hm).mpr (by omega)⟩

/-! ## The statements -/

/-- No offset of an accepted circle leads off the device (43_raster_circles R230). -/
theorem DeviceState.contains_of_circleAccept {d : DeviceState} {cx cy r x y : Int}
    (h : d.circleAccept cx cy r = true) (hx : |x - cx| ≤ |r|) (hy : |y - cy| ≤ |r|) :
    d.contains x y = true := by
  obtain ⟨hr, hleft, htop, hright, hbottom⟩ := DeviceState.circleAccept_iff.mp h
  rw [abs_of_pos (show 0 < r by omega), abs_le] at hx hy
  exact DeviceState.contains_iff.mpr (by omega)

/-- Settles O35: the offsets of the outline, and those inside its rows, stay within the radius. -/
theorem acceptedCirclesNeverClip : Obligations.AcceptedCirclesNeverClip := by
  intro d x y r h
  refine ⟨fun pt hpt => ?_, fun pt hpt => ?_, ?_⟩
  · have hoffset := mem_circleCells.mp hpt
    exact DeviceState.contains_of_circleAccept h hoffset.bounds.2 hoffset.exchange.bounds.2
  · obtain ⟨a, hdx, hoffset⟩ := (mem_fillCircleCells (DeviceState.circleAccept_iff.mp h).1).mp hpt
    exact DeviceState.contains_of_circleAccept h (hdx.trans hoffset.bounds.2) hoffset.exchange.bounds.2
  · have hoctant (m : Point) : (octantCells x y m).length = 8 := rfl
    simp only [circleCells, List.length_append, List.length_flatMap, hoctant, List.map_const', List.sum_replicate,
      smul_eq_mul, Nat.mul_comm 8, List.length_cons, List.length_nil]

/-- Settles O36: the outline depends on the unsigned offsets alone, and on their exchange not at all. -/
theorem circleHasEightSymmetries : Obligations.CircleHasEightSymmetries := by
  intro cx cy r a b h
  simp only [mem_circleCells, add_sub_cancel_left, sub_sub_cancel_left, abs_neg] at h ⊢
  exact ⟨h.exchange, h, h⟩

/-- Settles O37: a filled cell lies between the outline's cell in its row and the reflection of that cell;
between two outline cells, a cell is no farther from the centre than the farther one. -/
theorem filledCircleIsRowHullOfOutline : Obligations.FilledCircleIsRowHullOfOutline := by
  intro cx cy r pt hr
  simp only [mem_fillCircleCells hr, mem_circleCells]
  constructor
  · rintro ⟨a, hdx, hoffset⟩
    have ha : |a| = a := abs_of_nonneg hoffset.bounds.1
    obtain ⟨hleft, hright⟩ := abs_le.mp hdx
    refine ⟨cx - a, cx + a, ?_, ?_, by omega, by omega⟩
    · rwa [sub_sub_cancel_left, abs_neg, ha]
    · rwa [add_sub_cancel_left, ha]
  · rintro ⟨a, b, ha, hb, hleft, hright⟩
    have hfar : |pt.x - cx| ≤ max |a - cx| |b - cx| :=
      abs_le_max_abs_abs (sub_le_sub_right hleft cx) (sub_le_sub_right hright cx)
    rcases le_max_iff.mp hfar with hfar | hfar
    · exact ⟨_, hfar, ha⟩
    · exact ⟨_, hfar, hb⟩

end Sys2Proof.Machine
end

section
/-! SUPPORT. The inputs of the decoder other than data words (44_decoder R250 to R256, R258, R270, R271, R275,
R276, R278): each pin action, the flush and its frame, the read port, and the host's inputs through the step. -/

namespace Sys2Proof.Machine

/-! ## Pin actions -/

/-- The two select lines, the delay and the hardware reset at a decoder without a fault (44_decoder R251, R252,
R270, R271). -/
theorem Dec.pin_lines {d : Dec} (p : Params) (herr : d.err = none) :
    (∀ m, d.pin p (.selectMode m) = ({ d with rs := some m }, none)) ∧
    (∀ active, d.pin p (.selectChip active) = ({ d with cs := active }, none)) ∧
    (∀ ms, d.pin p (.delay ms) = (d, none)) ∧
    ∀ l w, d.pin p (.resetPulse l w) = (d.resetPulse p, none) := by
  simp [Dec.pin, herr]

/-- Settles O47: the four pin actions that are no strobe, the reset pulse spelled out. -/
theorem selectLinesDelayAndReset : Obligations.SelectLinesDelayAndReset := by
  intro p d herr
  obtain ⟨hmode, hchip, hdelay, hreset⟩ := Dec.pin_lines p herr
  refine ⟨hmode, hchip, hdelay, fun l w => ⟨hreset l w, fun a => ?_⟩⟩
  rw [hreset, Dec.resetPulse_regs, Memory.read_nil]

section Strobes

variable {d : Dec} (p : Params) (bytes : List Byte) (herr : d.err = none)
include herr

/-- Without a fault a strobe is told by the chip select line and the mode (44_decoder R253). -/
theorem Dec.pin_strobe : d.pin p (.writeBytes bytes) = d.writeBytes p bytes := by
  simp [Dec.pin, herr]

theorem Dec.pin_strobe_unselected (hcs : d.cs = false) : d.pin p (.writeBytes bytes) = (d, none) := by
  rw [Dec.pin_strobe p bytes herr, Dec.writeBytes, hcs]
  rfl

theorem Dec.pin_strobe_modeUnset (hcs : d.cs = true) (hrs : d.rs = none) :
    d.pin p (.writeBytes bytes) = d.raise .modeUnset := by
  rw [Dec.pin_strobe p bytes herr, Dec.writeBytes, hcs, hrs]
  rfl

theorem Dec.pin_strobe_cmd (hcs : d.cs = true) (hrs : d.rs = some .cmd) :
    d.pin p (.writeBytes bytes) = d.commandStrobe p bytes := by
  rw [Dec.pin_strobe p bytes herr, Dec.writeBytes, hcs, hrs]
  rfl

theorem Dec.pin_strobe_dataUnlatched (hcs : d.cs = true) (hrs : d.rs = some .data)
    (hlatched : d.latched = none) : d.pin p (.writeBytes bytes) = d.raise .dataWithoutCommand := by
  rw [Dec.pin_strobe p bytes herr, Dec.writeBytes, hcs, hrs, Bool.not_true]
  simp [Dec.dataStrobe, hlatched]

end Strobes

theorem Dec.commandStrobe_mapped {p : Params} {r : RegAddr} (d : Dec) (hr : p.mapped r = true) :
    d.commandStrobe p [r] =
      ({ d with latched := some r, partialByte := none, phase := .commandLatched }, none) := if_pos hr

theorem Dec.commandStrobe_unmapped {p : Params} {r : RegAddr} (d : Dec) (hr : p.mapped r = false) :
    d.commandStrobe p [r] = d.raise (.unmappedRegister r) := by
  simp [Dec.commandStrobe, hr]

theorem Dec.commandStrobe_badLength {bytes : List Byte} (p : Params) (d : Dec) (hlength : bytes.length ≠ 1) :
    d.commandStrobe p bytes = d.raise (.badCommandLength bytes.length) := by
  rcases d.commandStrobe_cases p bytes with ⟨r, rfl, -, -⟩ | ⟨r, rfl, -, -⟩ | ⟨-, hbad⟩
  · exact absurd rfl hlength
  · exact absurd rfl hlength
  · exact hbad

/-- Settles O48: the select line, the mode, and the checks of the strobe that the mode names. -/
theorem strobeChecksInOrder : Obligations.StrobeChecksInOrder := by
  intro p bytes d herr stopped
  refine ⟨Dec.pin_strobe_unselected p bytes herr, Dec.pin_strobe_modeUnset p bytes herr, fun hcs hrs => ?_,
    Dec.pin_strobe_dataUnlatched p bytes herr⟩
  have hstrobe := Dec.pin_strobe_cmd p bytes herr hcs hrs
  refine ⟨fun hlength => hstrobe.trans (Dec.commandStrobe_badLength p d hlength), ?_⟩
  rintro r rfl
  exact ⟨fun hr => hstrobe.trans (Dec.commandStrobe_unmapped d hr),
    fun hr => hstrobe.trans (Dec.commandStrobe_mapped d hr)⟩

/-! ## Cmd frames -/

/-- A command to an unmapped register faults at its strobe, so that the chip is not deselected any more
(40_transport R146, 44_decoder R254, R256). -/
theorem Dec.pins_cmd_unmapped {p : Params} {r : RegAddr} {d : Dec} (herr : d.err = none)
    (hr : p.mapped r = false) :
    Dec.pins p (framing (.cmd r)) d =
      ({ d with rs := some .cmd, cs := true, err := some (.unmappedRegister r), phase := .faulted },
        some (.unmappedRegister r)) := by
  obtain ⟨hmode, -, -, -⟩ := Dec.pin_lines p herr
  obtain ⟨-, hchip, -, -⟩ := Dec.pin_lines (d := { d with rs := some .cmd }) p herr
  have hstrobe := (Dec.pin_strobe_cmd (d := { d with rs := some .cmd, cs := true }) p [r] herr rfl rfl).trans
    (Dec.commandStrobe_unmapped _ hr)
  simp only [framing, Dec.pins_cons, hmode, hchip, hstrobe, Dec.pins_nil, Dec.raise]
  rw [Dec.pin_faulted p _ rfl]
  rfl

/-- A Cmd frame is its pin sequence at the decoder (log 9). -/
theorem exec_cmd_of_pins {s : State} {r : RegAddr} {d : Dec} {e : Option ProtocolError}
    (hpins : Dec.pins s.par (framing (.cmd r)) s.dec = (d, e)) :
    exec (.cmd r) s = .next { s with dec := d, result := signalled e } := by
  have hexec : exec (.cmd r) s = .next (s.transaction (.cmd r)) := rfl
  rw [hexec, State.transaction, hpins]

/-- Settles O44: the pin sequence of a command to a mapped and an unmapped register, and at a faulted
decoder. -/
theorem cmdFrameLatchesRegister : Obligations.CmdFrameLatchesRegister := fun _ s =>
  ⟨fun herr hr => exec_cmd_of_pins (Dec.pins_cmd herr hr),
   fun herr hr => exec_cmd_of_pins (Dec.pins_cmd_unmapped herr hr),
   fun hfaulted => exec_cmd_of_pins (Dec.pins_faulted s.par _ hfaulted)⟩

/-! ## Flush -/

theorem Dec.flush_faulted {d : Dec} (p : Params) (h : d.err.isSome = true) : d.flush p = d := if_pos h

theorem Dec.flush_clean {d : Dec} (p : Params) (h : d.dirty = false) : d.flush p = d := by
  simp [Dec.flush, h]

theorem Dec.flush_dirty {d : Dec} (p : Params) (herr : d.err = none) (hdirty : d.dirty = true) :
    d.flush p = { d with frames := d.frames ++ [d.makeFrame p], dirty := false } := by
  simp [Dec.flush, herr, hdirty]

/-- A list of `h` rows of `w` entries has `w * h` of them. -/
theorem length_flatMap_rows {α : Type} (f : Nat → Nat → α) (w h : Nat) :
    ((List.range h).flatMap fun y => (List.range w).map (f y)).length = w * h := by
  simp [List.length_flatMap, Nat.mul_comm]

/-- Entry `x` of row `y` has the row-major number `y * w + x` (44_decoder R276). -/
theorem getElem?_flatMap_rows {α : Type} (f : Nat → Nat → α) {w h x y : Nat} (hx : x < w) (hy : y < h) :
    ((List.range h).flatMap fun y => (List.range w).map (f y))[y * w + x]? = some (f y x) := by
  induction h with
  | zero => exact absurd hy (Nat.not_lt_zero y)
  | succ h ih =>
    rw [List.range_succ, List.flatMap_append, List.flatMap_singleton]
    rcases Nat.lt_succ_iff_lt_or_eq.mp hy with hy | rfl
    · have hmem := ih hy
      rw [List.getElem?_append_left (List.getElem?_eq_some_iff.mp hmem).1, hmem]
    · rw [List.getElem?_append_right (by rw [length_flatMap_rows, Nat.mul_comm]; exact Nat.le_add_right _ _),
        length_flatMap_rows, Nat.mul_comm, Nat.add_sub_cancel_left, List.getElem?_map, List.getElem?_range hx,
        Option.map_some]

/-- After a flush a further one has no effect: the decoder is faulted or clean (44_decoder R275). -/
theorem Dec.flush_flush (p : Params) (d : Dec) : (d.flush p).flush p = d.flush p := by
  by_cases hidle : d.err.isSome = true ∨ d.dirty = false
  · have hsame : d.flush p = d := hidle.elim (Dec.flush_faulted p) (Dec.flush_clean p)
    rw [hsame, hsame]
  · obtain ⟨herr, hdirty⟩ := not_or.mp hidle
    rw [Dec.flush_dirty p (Option.not_isSome_iff_eq_none.mp herr) (Bool.not_eq_false _ ▸ hdirty)]
    exact Dec.flush_clean p rfl

/-- Settles O52: a flush that is not gated sends the frame of the framebuffer's rows. -/
theorem flushIsDirtyGated : Obligations.FlushIsDirtyGated := by
  intro p d
  refine ⟨fun hidle => hidle.elim (Dec.flush_faulted p) (Dec.flush_clean p), fun herr hdirty => ?_,
    Dec.flush_flush p d⟩
  refine ⟨d.makeFrame p, Dec.flush_dirty p herr hdirty, rfl, rfl, rfl, ?_, rfl, fun x y hx hy => ?_⟩
  · exact length_flatMap_rows _ p.fbW p.fbH
  · exact getElem?_flatMap_rows (fun y x => (d.cell p x y).getD 0#16) hx hy

/-! ## The read port -/

/-- A pixel query is answered inside the framebuffer (44_decoder R278). -/
theorem Dec.answer_pixel {p : Params} {x y : Nat} (d : Dec) (hx : x < p.fbW) (hy : y < p.fbH) :
    d.answer p (.pixel x y) = some (.pixel (d.cell p x y)) := by
  simp [Dec.answer, hx, hy]

theorem Dec.answer_pixel_eq_none_iff {p : Params} {x y : Int} {d : Dec} :
    d.answer p (.pixel x y) = none ↔ x < 0 ∨ p.fbW ≤ x ∨ y < 0 ∨ p.fbH ≤ y := by
  rw [Dec.answer, ite_eq_right_iff]
  simp only [reduceCtorEq, imp_false]
  omega

/-- A register query is answered inside MAPPED (44_decoder R278). -/
theorem Dec.answer_reg {p : Params} {r : RegAddr} (d : Dec) (hr : p.mapped r = true) :
    d.answer p (.reg r) = some (.reg (Memory.read d.regs r.toNat)) := if_pos hr

theorem Dec.answer_reg_eq_none_iff {p : Params} {r : RegAddr} {d : Dec} :
    d.answer p (.reg r) = none ↔ p.mapped r = false := by
  simp [Dec.answer]

/-- The read port answers every query but the two ill-formed ones (44_decoder R278). -/
theorem Dec.answer_eq_none_iff {p : Params} {q : Query} {d : Dec} : d.answer p q = none ↔
    (∃ x y, q = .pixel x y ∧ (x < 0 ∨ p.fbW ≤ x ∨ y < 0 ∨ p.fbH ≤ y)) ∨
      ∃ r, q = .reg r ∧ p.mapped r = false := by
  cases q with
  | pixel x y => simp [Dec.answer_pixel_eq_none_iff]
  | reg r => simp [Dec.answer_reg_eq_none_iff]
  | fault => simp [Dec.answer]
  | dirty => simp [Dec.answer]
  | window => simp [Dec.answer]
  | cursor => simp [Dec.answer]
  | latched => simp [Dec.answer]
  | phase => simp [Dec.answer]
  | frames => simp [Dec.answer]

/-! ## The host's inputs through the step -/

/-- An input at the head of the line is taken off it (log 7). -/
theorem step_input {s : State} {i : Input} {rest : List Input} (hwf : s.par.wf = true)
    (hin : s.inputs = i :: rest) : step s = State.takeInput i { s with inputs := rest } := by
  simp [step, State.turn, hwf, hin]

theorem step_read_answered {s : State} {q : Query} {a : Answer} {rest : List Input} (hwf : s.par.wf = true)
    (hanswer : s.dec.answer s.par q = some a) (hin : s.inputs = .read q :: rest) :
    step s = .next { s with inputs := rest, result := .answer a } := by
  simp [step_input hwf hin, State.takeInput, State.readInput, hanswer]

theorem step_read_refused {s : State} {q : Query} {rest : List Input} (hwf : s.par.wf = true)
    (hanswer : s.dec.answer s.par q = none) (hin : s.inputs = .read q :: rest) :
    step s = .refused (.illFormedQuery q) := by
  simp [step_input hwf hin, State.takeInput, State.readInput, hanswer]

theorem step_createDecoder {s : State} {rest : List Input} (hwf : s.par.wf = true)
    (hin : s.inputs = .createDecoder :: rest) :
    step s = .next (State.createDecoder { s with inputs := rest }) := step_input hwf hin

/-- Settles O11: each input is taken off the line and reaches the decoder; the created one is spelled out. -/
theorem hostInputsReachTheDecoder : Obligations.HostInputsReachTheDecoder := by
  intro s rest hwf
  refine ⟨fun hin hready => ?_, fun a hin hbetween => ?_, step_input hwf, step_createDecoder hwf⟩
  · rw [step_input hwf hin]
    exact if_pos hready
  · have hopen : ¬ State.midEvent { s with inputs := rest } = true := by simpa [State.midEvent] using hbetween
    rw [step_pin hwf hin, State.pinTurn, if_neg hopen]
    rfl

/-- A value that a memory reads is one of its entries. -/
theorem Memory.mem_of_read_eq_some {m : Memory} {a : Nat} {w : Word16} (h : Memory.read m a = some w) :
    (a, w) ∈ m := by
  induction m with
  | nil => cases h
  | cons kv rest ih =>
    rw [Memory.read] at h
    split_ifs at h with hk
    · obtain rfl := Option.some.inj h
      exact hk ▸ List.mem_cons_self
    · exact List.mem_cons_of_mem _ (ih h)

/-- The mirror of a good decoder has no value for the setters and the GRAM port (44_decoder R264, R278). -/
theorem Dec.Ok.read_unrecorded {p : Params} {d : Dec} {r : RegAddr} (h : d.Ok p)
    (hr : p.unrecorded r = true) : Memory.read d.regs r.toNat = none := by
  obtain ⟨-, -, -, hrecorded, -⟩ := h
  rw [Option.eq_none_iff_forall_ne_some]
  intro w hread
  obtain ⟨r', hsame, -, hr'⟩ := hrecorded _ (Memory.mem_of_read_eq_some hread)
  rw [BitVec.eq_of_toNat_eq hsame, hr] at hr'
  cases hr'

/-- Settles O12: the step is the answer of the read port, or its refusal. -/
theorem readPortAnswers : Obligations.ReadPortAnswers := by
  intro s rest hwf ask tells
  have told : ∀ {q a}, s.dec.answer s.par q = some a → ask q → tells a := step_read_answered hwf
  have refused : ∀ {q}, s.dec.answer s.par q = none → ask q → step s = .refused (.illFormedQuery q) :=
    step_read_refused hwf
  exact ⟨fun x y hx hy => told (Dec.answer_pixel s.dec hx hy), told rfl, told rfl, told rfl, told rfl, told rfl,
    told rfl, fun r hr => told (Dec.answer_reg s.dec hr),
    fun r hok hr => hok.read_unrecorded (decide_eq_true hr), told rfl,
    fun x y hout => refused (Dec.answer_pixel_eq_none_iff.mpr hout),
    fun r hr => refused (Dec.answer_reg_eq_none_iff.mpr hr)⟩

/-! ## A faulted decoder -/

theorem State.transportTurn_dec_faulted {s : State} (h : s.dec.err.isSome = true) :
    s.transportTurn.dec = s.dec := by
  cases hw : s.wire with
  | nil => rw [State.transportTurn_idle hw]
  | cons a more => rw [State.transportTurn_carries hw, Dec.pin_faulted s.par a h]

/-- No instruction changes a faulted decoder: a request does not reach it, a frame is ignored (44_decoder
R254). -/
theorem ExecEffect.dec_faulted {i : Instr} {s t : State} (h : ExecEffect i s t)
    (hfaulted : s.dec.err.isSome = true) : t.dec = s.dec := by
  cases h with
  | request _ heffect => exact heffect.extends_dec.2
  | frame ev _ => exact congrArg Prod.fst (Dec.pins_faulted s.par (framing ev) hfaulted)
  | event ev _ => rfl

/-- Nothing a step can do changes a faulted decoder, but the creation of a new one (44_decoder R254). -/
theorem StepEffect.dec_faulted {s t : State} (h : StepEffect s t) (hfaulted : s.dec.err.isSome = true)
    (hkept : ∀ rest, s.inputs ≠ .createDecoder :: rest) : t.dec = s.dec := by
  cases h with
  | carried inputs => exact State.transportTurn_dec_faulted (s := { s with inputs := inputs }) hfaulted
  | executed rest h => exact (exec_effect h).dec_faulted hfaulted
  | awaited rest => rfl
  | pinned a rest => exact congrArg Prod.fst (Dec.pin_faulted s.par a hfaulted)
  | flushed rest => exact Dec.flush_faulted s.par hfaulted
  | answered a rest => rfl
  | created hin => exact absurd hin (hkept _)

/-- Settles O50: each input finds the guard of the fault closed, and only creation goes round it. -/
theorem faultedDecoderIgnoresInputs : Obligations.FaultedDecoderIgnoresInputs := by
  constructor
  · intro p d hfaulted
    exact ⟨fun a => Dec.pin_faulted p a hfaulted, Dec.flush_faulted p hfaulted, rfl,
      fun q => Dec.answer_eq_none_iff⟩
  · intro s t hfaulted hstep
    obtain ⟨hwf, heffect⟩ := step_effect hstep
    refine ⟨heffect.dec_faulted hfaulted, fun rest hin => ?_⟩
    obtain rfl := Host.Outcome.next.inj ((step_createDecoder hwf hin).symm.trans hstep)
    rfl

end Sys2Proof.Machine
end

section
/-! SUPPORT. The agreement of the two units (44_decoder R281): the decoder once it has taken everything on the
wire, what the events of each request make of it, and that this is what the front end holds. -/

namespace Sys2Proof.Machine

/-! ## The decoder at the end of the wire -/

/-- The decoder after the pin sequences of some events. -/
def Dec.afterEvents (p : Params) (evs : List Event) (d : Dec) : Dec :=
  (Dec.pins p (evs.flatMap framing) d).1

theorem Dec.afterEvents_append (p : Params) (evs evs' : List Event) (d : Dec) :
    d.afterEvents p (evs ++ evs') = (d.afterEvents p evs).afterEvents p evs' := by
  simp only [Dec.afterEvents, List.flatMap_append, Dec.pins_append]

theorem Dec.afterEvents_cons (p : Params) (ev : Event) (evs : List Event) (d : Dec) :
    d.afterEvents p (ev :: evs) = (d.afterEvents p [ev]).afterEvents p evs :=
  Dec.afterEvents_append p [ev] evs d

/-- An event whose pin sequence raises no fault. -/
theorem Dec.afterEvents_singleton {p : Params} {ev : Event} {d d' : Dec} {e : Option ProtocolError}
    (hpins : Dec.pins p (framing ev) d = (d', e)) : d.afterEvents p [ev] = d' := by
  rw [Dec.afterEvents, List.flatMap_singleton, hpins]

/-- The decoder after everything that stands on the wire (40_transport R149). -/
def State.decAhead (s : State) : Dec := (Dec.pins s.par s.wire s.dec).1

theorem State.decAhead_of_wire_nil {s : State} (hwire : s.wire = []) : s.decAhead = s.dec := by
  rw [State.decAhead, hwire, Dec.pins_nil]

theorem State.decAhead_sent (s : State) (evs : List Event) (d : DeviceState) (r : RegAddr) :
    (s.sent evs d r).decAhead = s.decAhead.afterEvents s.par evs := by
  simp only [State.decAhead, Dec.afterEvents, State.sent_par, State.sent_wire, State.sent_dec, Dec.pins_append]

/-- The transport's turns leave the parameters, the DeviceState and the latched register of the front end. -/
theorem State.settle_front (s : State) :
    s.settle.par = s.par ∧ s.settle.enc.dev = s.enc.dev ∧ s.settle.enc.latched = s.enc.latched := by
  generalize hw : s.wire = wire
  induction wire generalizing s with
  | nil =>
    rw [State.settle_nil hw]
    exact ⟨rfl, rfl, rfl⟩
  | cons a more ih =>
    rw [State.settle_cons hw, State.transportTurn_carries hw]
    exact ih _ rfl

/-! ## Agreement -/

/-- The decoder agrees with a device state and a latched register of the front end (44_decoder R281 (a) to
(e)). -/
structure Dec.Agrees (p : Params) (dev : DeviceState) (latched : Option RegAddr) (d : Dec) : Prop where
  err : d.err = none
  win : mapWindow (fun v => (v.toNat : Int)) d.win = dev.win
  cx : (d.cx : Int) = dev.cx
  cy : (d.cy : Int) = dev.cy
  latched : d.latched = latched
  entry : Memory.read d.regs p.regEntry.toNat = some (p.entryWord dev.rotation dev.colorOrder)
  partialByte : d.partialByte = none

/-- The units will agree when the wire has been carried to its end. -/
def State.AgreesAhead (s : State) : Prop :=
  s.decAhead.err = none ∧ ∀ d, s.enc.dev = some d → s.decAhead.Agrees s.par d s.enc.latched

theorem State.agree_iff (s : State) : s.Agree ↔
    s.dec.err = none ∧ ∀ d, s.enc.dev = some d → s.dec.Agrees s.par d s.enc.latched := by
  refine and_congr_right fun herr => forall₂_congr fun d _ => ⟨?_, fun h => ?_⟩
  · rintro ⟨⟨hx1, hy1, hx2, hy2⟩, ⟨hcx, hcy⟩, hlatched, hentry, hpartial⟩
    exact ⟨herr, by simp only [mapWindow, hx1, hy1, hx2, hy2], hcx, hcy, hlatched, hentry, hpartial⟩
  · obtain ⟨-, hwin, hcx, hcy, hlatched, hentry, hpartial⟩ := h
    rw [← hwin]
    exact ⟨⟨rfl, rfl, rfl, rfl⟩, ⟨hcx, hcy⟩, hlatched, hentry, hpartial⟩

theorem State.settle_agree_iff (s : State) : s.settle.Agree ↔ s.AgreesAhead := by
  obtain ⟨hpar, hdev, hlatched⟩ := s.settle_front
  rw [State.agree_iff, hpar, hdev, hlatched, State.settle_dec]
  rfl

/-- On an empty wire agreement ahead is agreement now. -/
theorem State.agreesAhead_of_agree {s : State} (hwire : s.wire = []) (h : s.Agree) : s.AgreesAhead :=
  (State.settle_agree_iff s).mp ((State.settle_nil hwire).symm ▸ h)

/-- Sent events bring agreement when the decoder, having taken them, agrees with what the front end holds. -/
theorem State.agreesAhead_sent {s : State} {evs : List Event} {d : DeviceState} {r : RegAddr}
    (h : (s.decAhead.afterEvents s.par evs).Agrees s.par d (some r)) : (s.sent evs d r).AgreesAhead := by
  rw [State.AgreesAhead, State.decAhead_sent]
  refine ⟨h.err, ?_⟩
  rintro _ ⟨⟩
  exact h

theorem State.AgreesAhead.logged {s : State} (h : s.AgreesAhead) (code : BitVec 8) (op : BitVec 4) :
    (s.logged code op).AgreesAhead := h

theorem State.AgreesAhead.withPen {s : State} (h : s.AgreesAhead) (pen : Point) :
    (s.withPen pen).AgreesAhead := h

/-- The prologue: without a device one record is logged, so that the body decides (41_encoder_config R170). -/
theorem State.AgreesAhead.withDevice {s : State} (h : s.AgreesAhead) {op : BitVec 4}
    {body : DeviceState → State} (hbody : ∀ d, s.enc.dev = some d → (body d).AgreesAhead) :
    (s.withDevice op body).AgreesAhead := by
  cases hd : s.enc.dev with
  | none => exact State.withDevice_none op body hd ▸ h.logged _ _
  | some d => exact State.withDevice_some op body hd ▸ hbody d hd

/-! ## Windows and GRAM words -/

/-- The corners fit the 16-bit fields of their data words (00_scope R12). -/
def windowFitsWords (w : Window Int) : Prop :=
  (0 ≤ w.x1 ∧ w.x1 < 65536) ∧ (0 ≤ w.y1 ∧ w.y1 < 65536) ∧
    (0 ≤ w.x2 ∧ w.x2 < 65536) ∧ 0 ≤ w.y2 ∧ w.y2 < 65536

theorem windowInFramebuffer.fitsWords {p : Params} {w : Window Int} (hw : windowInFramebuffer p w)
    (hwf : p.wf = true) : windowFitsWords w := by
  obtain ⟨-, hfbW, -, hfbH⟩ := Params.wf_framebuffer hwf
  simp only [windowInFramebuffer] at hw
  simp only [windowFitsWords]
  omega

/-- The events of a window bring window, cursor and latched register into agreement; the entry word is left
(41_encoder_config R182). -/
theorem Dec.agrees_windowEvents {p : Params} {d : Dec} {dev : DeviceState} {w : Window Int} (hwf : p.wf = true)
    (herr : d.err = none)
    (hentry : Memory.read d.regs p.regEntry.toNat = some (p.entryWord dev.rotation dev.colorOrder))
    (hw : windowFitsWords w) :
    (d.afterEvents p (windowEvents p w)).Agrees p (dev.setWindow w) (some p.regGram) := by
  obtain ⟨⟨hx1, hx1'⟩, ⟨hy1, hy1'⟩, ⟨hx2, hx2'⟩, hy2, hy2'⟩ := hw
  have hleft := coordWord_toNat hx1 hx1'
  have htop := coordWord_toNat hy1 hy1'
  rw [Dec.afterEvents, Dec.pins_windowEvents hwf herr]
  refine ⟨herr, ?_, hleft, htop, rfl, hentry, rfl⟩
  simp only [mapWindow, hleft, htop, coordWord_toNat hx2 hx2', coordWord_toNat hy2 hy2',
    DeviceState.setWindow_win]

/-- The window lies in the framebuffer and the cursor in the window. -/
def DeviceState.CursorFits (p : Params) (d : DeviceState) : Prop :=
  0 ≤ d.win.x1 ∧ d.win.x1 ≤ d.cx ∧ d.cx ≤ d.win.x2 ∧ d.win.x2 < p.fbW ∧
  0 ≤ d.win.y1 ∧ d.win.y1 ≤ d.cy ∧ d.cy ≤ d.win.y2 ∧ d.win.y2 < p.fbH

theorem DeviceState.CursorFits.advanceCursor {p : Params} {d : DeviceState} (h : d.CursorFits p) :
    d.advanceCursor.CursorFits p := by
  obtain ⟨hx, hx1, hx2, hfbW, hy, hy1, hy2, hfbH⟩ := h
  obtain ⟨hcx1, hcx2, hcy1, hcy2⟩ := advance_mem hx1 hx2 hy1 hy2
  exact ⟨hx, hcx1, hcx2, hfbW, hy, hcy1, hcy2, hfbH⟩

/-- A window just set has its cursor at its origin (41_encoder_config R182). -/
theorem windowInFramebuffer.cursorFits {p : Params} {w : Window Int} (hw : windowInFramebuffer p w)
    (d : DeviceState) : (d.setWindow w).CursorFits p := by
  obtain ⟨hx1, hx12, hfbW, hy1, hy12, hfbH⟩ := hw
  exact ⟨hx1, le_refl _, hx12, hfbW, hy1, le_refl _, hy12, hfbH⟩

/-- A GRAM word is taken where the cursor fits, and moves both cursors alike (44_decoder R261). -/
theorem Dec.Agrees.gramWord {p : Params} {d : Dec} {dev : DeviceState} (h : d.Agrees p dev (some p.regGram))
    (hfits : dev.CursorFits p) (w : Word16) :
    (d.afterEvents p [.data w]).Agrees p dev.advanceCursor (some p.regGram) := by
  obtain ⟨herr, hwindow, hcx, hcy, hlatched, hentry, hpartial⟩ := h
  have hwin : d.cursorInWindow = true := by
    simp only [DeviceState.CursorFits, ← hwindow, ← hcx, ← hcy, mapWindow] at hfits
    exact decide_eq_true (by omega)
  have hfb : d.cursorInFramebuffer p = true := by
    simp only [DeviceState.CursorFits] at hfits
    exact decide_eq_true (by omega)
  obtain ⟨hcx', hcy'⟩ := advance_agrees hwindow hcx hcy
  rw [Dec.afterEvents_singleton (Dec.pins_gram w herr hlatched hpartial hwin hfb)]
  exact ⟨herr, hwindow, hcx', hcy', hlatched, hentry, rfl⟩

theorem Dec.Agrees.gramWords {p : Params} {d : Dec} {dev : DeviceState} (h : d.Agrees p dev (some p.regGram))
    (hfits : dev.CursorFits p) (w : Word16) (n : Nat) :
    (d.afterEvents p (List.replicate n (.data w))).Agrees p (dev.advanceTimes n) (some p.regGram) := by
  induction n generalizing d dev with
  | zero => exact h
  | succ n ih =>
    rw [List.replicate_succ, Dec.afterEvents_cons]
    exact ih (h.gramWord hfits w) hfits.advanceCursor

/-- A window and words through it (42_raster_primitives R200, R206). -/
theorem Dec.Agrees.windowWords {p : Params} {d : Dec} {dev : DeviceState} {latched : Option RegAddr}
    (h : d.Agrees p dev latched) (hwf : p.wf = true) {w : Window Int} (hw : windowInFramebuffer p w) (c : Color)
    (n : Nat) :
    (d.afterEvents p (windowEvents p w ++ List.replicate n (.data c))).Agrees p
      ((dev.setWindow w).advanceTimes n) (some p.regGram) := by
  rw [Dec.afterEvents_append]
  exact (Dec.agrees_windowEvents hwf h.err h.entry (hw.fitsWords hwf)).gramWords (hw.cursorFits dev) c n

/-- The word of WRITE_DATA16, after GRAM write mode has been opened again if need be (41_encoder_config
R193). -/
theorem Dec.Agrees.reopenedWord {p : Params} {d : Dec} {dev : DeviceState} {latched : Option RegAddr}
    (h : d.Agrees p dev latched) (hfits : dev.CursorFits p) (w : Word16) :
    (d.afterEvents p (reopenEvents p latched w)).Agrees p dev.advanceCursor (some p.regGram) := by
  unfold reopenEvents
  split_ifs with hgram
  · exact (hgram ▸ h).gramWord hfits w
  · have hopened : (d.commanded p.regGram).Agrees p dev (some p.regGram) :=
      ⟨h.err, h.win, h.cx, h.cy, rfl, h.entry, rfl⟩
    rw [Dec.afterEvents_cons, Dec.afterEvents_singleton (Dec.pins_cmd h.err (Params.mapped_regGram p))]
    exact hopened.gramWord hfits w

/-! ## The entry word -/

/-- The entry register written at a decoder without a fault (44_decoder R264). -/
theorem Dec.afterEvents_entry {p : Params} {d : Dec} (hwf : p.wf = true) (herr : d.err = none) (v : Word16) :
    d.afterEvents p [.cmd p.regEntry, .data v] =
      { (d.commanded p.regEntry).atDataWord with
          regs := Memory.write d.regs p.regEntry.toNat v, cs := false } := by
  obtain ⟨-, -, -, -, -, -, hword⟩ := Dec.registerWord_setters hwf v (d.commanded p.regEntry).atDataWord
  have hpins := Dec.pins_writeReg herr (by simp [Params.roles]) hword
  rw [Dec.afterEvents, List.flatMap_cons, List.flatMap_singleton, hpins]
  rfl

/-- The entry word of a device with the window and the cursor as before (41_encoder_config R185, R190). -/
theorem Dec.Agrees.entryWritten {p : Params} {d : Dec} {dev dev' : DeviceState} {latched : Option RegAddr}
    (h : d.Agrees p dev latched) (hwf : p.wf = true) (hwin : dev'.win = dev.win) (hcx : dev'.cx = dev.cx)
    (hcy : dev'.cy = dev.cy) :
    (d.afterEvents p [.cmd p.regEntry, .data (p.entryWord dev'.rotation dev'.colorOrder)]).Agrees p dev'
      (some p.regEntry) := by
  rw [Dec.afterEvents_entry hwf h.err]
  exact ⟨h.err, h.win.trans hwin.symm, h.cx.trans hcx.symm, h.cy.trans hcy.symm, rfl,
    Memory.read_write_same _ _ _, rfl⟩

theorem State.AgreesAhead.writeEntry {s : State} {d d' : DeviceState} (h : s.AgreesAhead)
    (hwf : s.par.wf = true) (hd : s.enc.dev = some d) (hwin : d'.win = d.win) (hcx : d'.cx = d.cx)
    (hcy : d'.cy = d.cy) :
    ((s.setDevice d').writeReg s.par.regEntry (s.par.entryWord d'.rotation d'.colorOrder)).AgreesAhead := by
  rw [State.setDevice_writeEntry hwf]
  exact State.agreesAhead_sent ((h.2 d hd).entryWritten hwf hwin hcx hcy)

/-! ## INIT -/

/-- A data word to any register but the GRAM port is taken (44_decoder R262 to R264). -/
theorem Dec.registerWord_taken {p : Params} {r : RegAddr} (hr : r ≠ p.regGram) (w : Word16) (d : Dec) :
    ∃ d', d.registerWord p r w = (d', none) := by
  unfold Dec.registerWord
  rw [if_neg hr]
  split_ifs <;> exact ⟨_, rfl⟩

/-- INIT_SEQUENCE writes mapped registers and never the GRAM port, so that it raises no fault
(41_encoder_config R172). -/
theorem Dec.afterEvents_initSequence_err {p : Params} {steps : List InitStep} {d : Dec}
    (hsteps : ∀ r ∈ initRegisters steps, p.mapped r = true ∧ r ≠ p.regGram) (herr : d.err = none) :
    (d.afterEvents p (initSequenceEvents steps)).err = none := by
  induction steps generalizing d with
  | nil => exact herr
  | cons step steps ih =>
    cases step with
    | delay ms =>
      obtain ⟨-, -, hdelay, -⟩ := Dec.pin_lines p herr
      rw [initSequenceEvents, Dec.afterEvents_cons, Dec.afterEvents_singleton (d' := d) (e := none)
        (by simp [framing, Dec.pins_cons, hdelay])]
      exact ih hsteps herr
    | writeReg r v =>
      simp only [initRegisters, List.forall_mem_cons] at hsteps
      obtain ⟨⟨hmapped, hgram⟩, hsteps⟩ := hsteps
      obtain ⟨d', hword⟩ := Dec.registerWord_taken hgram v (d.commanded r).atDataWord
      have hpins : Dec.pins p (framing (.data v)) (d.commanded r) = ({ d' with cs := false }, none) :=
        Dec.pins_data_taken herr rfl rfl hword
      rw [initSequenceEvents, Dec.afterEvents_cons, Dec.afterEvents_singleton (Dec.pins_cmd herr hmapped),
        Dec.afterEvents_cons, ← Dec.commanded, Dec.afterEvents_singleton hpins]
      exact ih hsteps ((Dec.registerWord_err hword).1.trans herr)

/-- The events of an accepted INIT bring a decoder without a fault into agreement (41_encoder_config R171). -/
theorem Dec.agrees_initEvents {p : Params} {d : Dec} {w h : Int} (hwf : p.wf = true) (herr : d.err = none)
    (rot : Int) (hw : windowFitsWords ⟨0, 0, w - 1, h - 1⟩) :
    (d.afterEvents p (initEvents p w h rot)).Agrees p (createdDevice p w h rot) (some p.regGram) := by
  obtain ⟨-, -, -, hreset⟩ := Dec.pin_lines p herr
  obtain ⟨-, -, hgram, -⟩ := Params.wf_conditions hwf
  have hsequence := Dec.afterEvents_initSequence_err (p := p) (steps := p.initSequence) (d := d.resetPulse p)
    (fun r hr => ⟨by simp [Params.mapped, Params.mappedList, hr], fun heq => hgram (heq ▸ hr)⟩) herr
  rw [initEvents, Dec.afterEvents_append, Dec.afterEvents_cons, Dec.afterEvents_append,
    Dec.afterEvents_singleton (d' := d.resetPulse p) (e := none) (by simp [framing, Dec.pins_cons, hreset]),
    Dec.afterEvents_entry hwf hsequence]
  exact Dec.agrees_windowEvents (dev := createdDevice p w h rot) hwf hsequence
    (Memory.read_write_same _ _ _) hw

/-- An operand is a 16-bit signed number (30_encoding R102). -/
theorem fitsOperand_iff {v : Int} : fitsOperand v = true ↔ -32768 ≤ v ∧ v ≤ 32767 := by
  simp [fitsOperand]

theorem execInit_agreesAhead {s : State} {w h rot : Int} (hwf : s.par.wf = true)
    (hi : (Instr.init w h rot).wf = true) (hin : initInRange s.par w h rot = true)
    (herr : s.decAhead.err = none) : ∃ t, exec (.init w h rot) s = .next t ∧ t.AgreesAhead := by
  refine ⟨_, execInit_accepted hin, State.agreesAhead_sent (Dec.agrees_initEvents hwf herr rot ?_)⟩
  obtain ⟨-, hw, -, hh, -⟩ := initInRange_iff.mp hin
  simp only [Instr.wf, Bool.and_eq_true, fitsOperand_iff] at hi
  simp only [windowFitsWords]
  omega

/-! ## Drawing -/

/-- A state that drawing requests keep: the units will agree and the framebuffer covers the extents. -/
structure State.Drawable (s : State) : Prop where
  wf : s.par.wf = true
  agrees : s.AgreesAhead
  fits : s.ExtentsFit

/-- A window on the device, and words through it, keep a state drawable. -/
theorem State.Drawable.windowWords {s : State} (h : s.Drawable) {d : DeviceState} (hd : s.enc.dev = some d)
    {w : Window Int} (hw : d.Holds w) (c : Color) (n : Nat) :
    (s.sent (windowEvents s.par w ++ List.replicate n (.data c)) ((d.setWindow w).advanceTimes n)
      s.par.regGram).Drawable where
  wf := h.wf
  agrees := by
    obtain ⟨hwidth, hheight⟩ := h.fits d hd
    exact State.agreesAhead_sent
      ((h.agrees.2 d hd).windowWords h.wf (hw.windowInFramebuffer hwidth hheight) c n)
  fits := by
    rintro _ ⟨⟩
    exact DeviceState.advanceTimes_keeps (P := fun d => d.width ≤ s.par.fbW ∧ d.height ≤ s.par.fbH)
      (fun _ => id) n (h.fits d hd)

theorem State.Drawable.plotPixel {s : State} (h : s.Drawable) (c : Color) (pt : Point) :
    (s.plotPixel c pt).Drawable := by
  cases hd : s.enc.dev with
  | none => simpa only [State.plotPixel, hd] using h
  | some d =>
    cases hin : d.contains pt.x pt.y with
    | false =>
      rw [State.plotPixel_outside c hd hin]
      exact h
    | true =>
      have hburst := h.windowWords hd (DeviceState.holds_cellWindow hin) c 1
      have hcell : (d.setWindow (cellWindow pt)).advanceTimes 1 =
          { d with win := cellWindow pt, cx := pt.x, cy := pt.y } := by
        simp only [DeviceState.advanceTimes, DeviceState.advanceCursor, DeviceState.setWindow]
        rw [show (cellWindow pt).x1 = pt.x from rfl, show (cellWindow pt).y1 = pt.y from rfl, advance_cell]
      rw [hcell] at hburst
      rw [State.plotPixel_inside c hd hin]
      exact hburst

theorem State.Drawable.plotCells {s : State} (h : s.Drawable) (cells : List Point) (c : Color) :
    (s.plotCells cells c).Drawable := by
  induction cells generalizing s with
  | nil => exact h
  | cons pt cells ih => exact ih (h.plotPixel c pt)

/-! ## Each request -/

/-- A normalised window of encodable corners fits the data words, on whatever device (41_encoder_config
R181). -/
theorem windowFitsWords_normWindow {x1 y1 x2 y2 : Int} (hi : (Instr.setWindow x1 y1 x2 y2).wf = true)
    (d : DeviceState) : windowFitsWords (d.normWindow x1 y1 x2 y2) := by
  simp only [Instr.wf, Bool.and_eq_true, fitsOperand_iff] at hi
  simp only [windowFitsWords, DeviceState.normWindow, clamp]
  omega

/-- A drawing request completes, and the units will agree. -/
theorem exec_drawing_agreesAhead {i : Instr} {s : State} (hi : (paintColor i).isSome = true)
    (hs : s.Drawable) : ∃ t, exec i s = .next t ∧ t.AgreesAhead := by
  obtain ⟨hfixed, hgfx⟩ := Params.wf_fonts hs.wf
  have hagrees := hs.agrees
  have hplots : ∀ cells c, (s.plotCells cells c).AgreesAhead := fun cells c => (hs.plotCells cells c).agrees
  have htext : ∀ drawn c, (s.drawText drawn c).AgreesAhead := fun drawn c =>
    (hplots drawn.1 c).withPen drawn.2
  have hdrop : ∀ code op, (s.drop code op).AgreesAhead := hagrees.logged
  cases i with
  | drawPixel x y c =>
    exact ⟨_, rfl, hagrees.withDevice fun _ _ =>
      iteInduction (fun _ => hplots [⟨x, y⟩] c) fun _ => hdrop _ _⟩
  | fillRect x y w h c =>
    refine ⟨_, rfl, hagrees.withDevice fun d hd => ?_⟩
    cases hclip : d.clipRect x y w h with
    | none => exact hdrop _ _
    | some win =>
      simp only
      rw [State.setWindowCore_eq hd, State.sent_emitDataTimes]
      exact (hs.windowWords hd (DeviceState.holds_clipRect hclip) c _).agrees
  | drawLine x0 y0 x1 y1 c => exact ⟨_, rfl, hagrees.withDevice fun _ _ => hplots _ c⟩
  | drawRect x y w h c =>
    exact ⟨_, rfl, hagrees.withDevice fun _ _ => iteInduction (fun _ => hdrop _ _) fun _ => hplots _ c⟩
  | drawCircle x y r c =>
    exact ⟨_, rfl, hagrees.withDevice fun _ _ => iteInduction (fun _ => hplots _ c) fun _ => hdrop _ _⟩
  | fillCircle x y r c =>
    exact ⟨_, rfl, hagrees.withDevice fun _ _ => iteInduction (fun _ => hplots _ c) fun _ => hdrop _ _⟩
  | drawCharFixed x y ch c size =>
    exact ⟨_, if_pos hfixed, hagrees.withDevice fun _ _ =>
      iteInduction (fun _ => hdrop _ _) fun _ => htext _ c⟩
  | drawStringFixed x y c size payload =>
    exact ⟨_, if_pos hfixed, hagrees.withDevice fun _ _ =>
      iteInduction (fun _ => hdrop _ _) fun _ => htext _ c⟩
  | drawCharGfx x y ch c => exact ⟨_, if_pos hgfx, hagrees.withDevice fun _ _ => htext _ c⟩
  | drawStringGfx x y c payload => exact ⟨_, if_pos hgfx, hagrees.withDevice fun _ _ => htext _ c⟩
  | _ => cases hi

/-- Every request completes, and the units will agree, where the framebuffer covers the GRAM words it may
emit (44_decoder R281). -/
theorem exec_agreesAhead {i : Instr} {s : State} {op : BitVec 4} (hop : opcodeOf i = some op)
    (hi : i.wf = true) (hwf : s.par.wf = true) (hs : s.AgreesAhead) (hcovers : s.Covers i) :
    ∃ t, exec i s = .next t ∧ t.AgreesAhead := by
  obtain ⟨hextents, hwindow⟩ := hcovers
  have hdrop : ∀ code op, (s.drop code op).AgreesAhead := hs.logged
  by_cases hpaint : (paintColor i).isSome = true
  · exact exec_drawing_agreesAhead hpaint ⟨hwf, hs, hextents hpaint⟩
  cases i with
  | reserved => exact ⟨_, rfl, hdrop _ _⟩
  | init w h rot =>
    by_cases hin : initInRange s.par w h rot = true
    · exact execInit_agreesAhead hwf hi hin hs.1
    · exact ⟨_, congrArg Host.Outcome.next (if_neg hin), hdrop _ _⟩
  | setWindow x1 y1 x2 y2 =>
    refine ⟨_, rfl, hs.withDevice fun d hd => ?_⟩
    have hagrees := hs.2 d hd
    rw [State.setWindowCore_eq hd]
    exact State.agreesAhead_sent
      (Dec.agrees_windowEvents hwf hagrees.err hagrees.entry (windowFitsWords_normWindow hi d))
  | setRotation rot =>
    refine ⟨_, rfl, hs.withDevice fun d hd =>
      iteInduction (fun _ => hdrop _ _) fun _ => iteInduction (fun _ => hs) fun _ => ?_⟩
    rw [DeviceState.rotate_eq]
    exact hs.writeEntry hwf hd rfl rfl rfl
  | setColorOrder isRgb =>
    refine ⟨_, rfl, hs.withDevice fun d hd => iteInduction (fun _ => hs) fun _ => ?_⟩
    exact hs.writeEntry (d' := { d with colorOrder := selectedOrder isRgb }) hwf hd rfl rfl rfl
  | writeData16 w =>
    refine ⟨_, rfl, hs.withDevice fun d hd => ?_⟩
    rw [State.reopenGram_emitData hd]
    exact State.agreesAhead_sent ((hs.2 d hd).reopenedWord (hwindow ⟨w, rfl⟩ d hd) w)
  | cmd r => cases hop
  | data w => cases hop
  | eventCmd r => cases hop
  | eventData w => cases hop
  | eventDelay ms => cases hop
  | eventReset => cases hop
  | _ => exact absurd rfl hpaint

/-- Settles O58: what each request sends makes of the decoder at the end of the wire what it makes of the front
end. -/
theorem requestsKeepAgreement : Obligations.RequestsKeepAgreement := by
  constructor
  · rintro i s t ⟨op, hop⟩ hi hwf hwire hagree hcovers hexec
    obtain ⟨t', hexec', hagrees⟩ :=
      exec_agreesAhead hop hi hwf (State.agreesAhead_of_agree hwire hagree) hcovers
    obtain rfl := Host.Outcome.next.inj (hexec'.symm.trans hexec)
    exact (State.settle_agree_iff t').mpr hagrees
  · intro W H rot s hwf hi hwire herr hrot0 hrot7 hW hWmax hH hHmax
    have hin : initInRange s.par W H rot = true :=
      initInRange_iff.mpr ⟨⟨hrot0, hrot7⟩, hW, hWmax, hH, hHmax⟩
    have hquiet : s.decAhead.err = none := by rw [State.decAhead_of_wire_nil hwire, herr]
    obtain ⟨t, hexec, hagrees⟩ := execInit_agreesAhead hwf hi hin hquiet
    exact ⟨t, hexec, (State.settle_agree_iff t).mpr hagrees⟩

end Sys2Proof.Machine
end

section
/-! SUPPORT. Text: the cells of a glyph of either font, the pen each character leaves, and the pen along a
string. -/

namespace Sys2Proof.Machine

/-! ## Glyph cells -/

/-- A font bit is set when its byte lies in the array and has it set (20_memory R76, R79). -/
theorem fontBit_eq_true_iff {array : List Byte} {a k : Nat} :
    fontBit array a k = true ↔ ∃ b, array[a]? = some b ∧ b.getLsbD (7 - k) = true := by
  unfold fontBit memRead
  cases array[a]? <;> simp

theorem mem_blockCells {x y : Int} {size : Nat} {pt : Point} :
    pt ∈ blockCells x y size ↔ ∃ dx dy : Nat, dx < size ∧ dy < size ∧ pt = ⟨x + dx, y + dy⟩ := by
  simp only [blockCells, List.mem_flatMap, List.mem_map, List.mem_range]
  constructor
  · rintro ⟨dy, hdy, dx, hdx, rfl⟩
    exact ⟨dx, dy, hdx, hdy, rfl⟩
  · rintro ⟨dx, dy, hdx, hdy, rfl⟩
    exact ⟨dy, hdy, dx, hdx, rfl⟩

/-- The range test of either font, on naturals (45_text R292, R301). -/
theorem outside_iff {first last ch : Byte} :
    (ch < first ∨ ch > last) ↔ ¬ (first.toNat ≤ ch.toNat ∧ ch.toNat ≤ last.toNat) := by
  rw [gt_iff_lt, BitVec.lt_def, BitVec.lt_def]
  omega

/-! ## A fixed-cell character -/

section FixedChar

variable {f : FixedFont} {ch : Byte}

/-- A character of the font: its blocks, and the scaled advance (45_text R292, R293). -/
theorem fixedChar_covered (hch : f.firstChar.toNat ≤ ch.toNat ∧ ch.toNat ≤ f.lastChar.toNat) (size : Nat)
    (pen : Point) :
    fixedChar f size pen ch =
      ((List.range f.cellWidth).flatMap fun i => (List.range f.cellHeight).flatMap fun j =>
          if fontBit f.data ((ch.toNat - f.firstChar.toNat) * f.cellWidth + i) j then
            blockCells (pen.x + i * size) (pen.y + j * size) size
          else [],
       ⟨pen.x + (f.cellWidth + f.gap) * size, pen.y⟩) := by
  have hin : ¬ (ch < f.firstChar ∨ ch > f.lastChar) := fun hout => outside_iff.mp hout hch
  simp only [fixedChar, fixedGlyph, if_neg hin, Nat.cast_mul, Nat.cast_add]

/-- A character outside the font draws nothing and leaves the pen (45_text R293). -/
theorem fixedChar_uncovered (hch : ¬ (f.firstChar.toNat ≤ ch.toNat ∧ ch.toNat ≤ f.lastChar.toNat)) (size : Nat)
    (pen : Point) : fixedChar f size pen ch = ([], pen) := by
  simp only [fixedChar, fixedGlyph, if_pos (outside_iff.mpr hch)]

/-- The points of a character are those of the blocks of its set bits (45_text R293). -/
theorem mem_fixedChar (hch : f.firstChar.toNat ≤ ch.toNat ∧ ch.toNat ≤ f.lastChar.toNat)
    {size : Nat} {pen pt : Point} :
    pt ∈ (fixedChar f size pen ch).1 ↔
      ∃ i < f.cellWidth, ∃ j < f.cellHeight,
        fontBit f.data ((ch.toNat - f.firstChar.toNat) * f.cellWidth + i) j = true ∧
        pt ∈ blockCells (pen.x + i * size) (pen.y + j * size) size := by
  simp only [fixedChar_covered hch, List.mem_flatMap, List.mem_range, List.mem_ite_nil_right]

end FixedChar

/-! ## A proportional character -/

section GfxChar

variable {f : GfxFont} {ch : Byte}

/-- A well-formed font has a glyph for each character it covers (45_text R300). -/
theorem GfxFont.wf_exists_glyph (hwf : f.wf = true)
    (hch : f.first.toNat ≤ ch.toNat ∧ ch.toNat ≤ f.last.toNat) :
    ∃ g, f.glyphs[ch.toNat - f.first.toNat]? = some g := by
  simp only [GfxFont.wf, Bool.and_eq_true, decide_eq_true_eq] at hwf
  obtain ⟨⟨-, hlength⟩, -⟩ := hwf
  exact ⟨_, List.getElem?_eq_getElem (by omega)⟩

/-- A character of the font: its set bits at the glyph's offset, and the glyph's advance (45_text R301,
R302). -/
theorem gfxChar_covered {g : GfxGlyph} (hch : f.first.toNat ≤ ch.toNat ∧ ch.toNat ≤ f.last.toNat)
    (hg : f.glyphs[ch.toNat - f.first.toNat]? = some g) (pen : Point) :
    gfxChar f pen ch =
      ((List.range g.height).flatMap fun j => (List.range g.width).flatMap fun i =>
          if fontBit f.bitmap (g.bitmapOffset + (j * g.width + i) / 8) ((j * g.width + i) % 8) then
            [⟨pen.x + g.xOffset + i, pen.y + g.yOffset + j⟩]
          else [],
       ⟨pen.x + g.xAdvance, pen.y⟩) := by
  have hin : ¬ (ch < f.first ∨ ch > f.last) := fun hout => outside_iff.mp hout hch
  simp only [gfxChar, gfxGlyph, if_neg hin, hg]

/-- A character without a glyph draws nothing and leaves the pen (45_text R302). -/
theorem gfxChar_of_gfxGlyph_none (h : gfxGlyph f ch = none) (pen : Point) : gfxChar f pen ch = ([], pen) := by
  simp only [gfxChar, h]

theorem gfxGlyph_uncovered (hch : ¬ (f.first.toNat ≤ ch.toNat ∧ ch.toNat ≤ f.last.toNat)) :
    gfxGlyph f ch = none := by
  rw [gfxGlyph, if_pos (outside_iff.mpr hch)]

end GfxChar

/-! ## The pen along a string -/

/-- The pen moves by the scaled advance for a character of the font (45_text R293). -/
theorem fixedChar_pen (f : FixedFont) (size : Nat) (pen : Point) (ch : Byte) :
    (fixedChar f size pen ch).2 =
      ⟨pen.x + ((f.cellWidth + f.gap) * size *
          [ch].countP fun ch => decide (f.firstChar.toNat ≤ ch.toNat ∧ ch.toNat ≤ f.lastChar.toNat) : Nat),
        pen.y⟩ := by
  by_cases h : f.firstChar.toNat ≤ ch.toNat ∧ ch.toNat ≤ f.lastChar.toNat
  · simp [fixedChar_covered h, h]
  · simp [fixedChar_uncovered h, h]

theorem fixedString_append (f : FixedFont) (size : Nat) (P Q : List Byte) (pen : Point) :
    fixedString f size (P ++ Q) pen =
      ((fixedString f size P pen).1 ++ (fixedString f size Q (fixedString f size P pen).2).1,
       (fixedString f size Q (fixedString f size P pen).2).2) := by
  induction P generalizing pen with
  | nil => rfl
  | cons ch P ih => simp only [List.cons_append, fixedString, ih, List.append_assoc]

theorem fixedString_singleton (f : FixedFont) (size : Nat) (ch : Byte) (pen : Point) :
    fixedString f size [ch] pen = fixedChar f size pen ch := by
  simp only [fixedString, List.append_nil]

/-- The pen moves by the scaled advance for each character of the font (45_text R294). -/
theorem fixedString_pen (f : FixedFont) (size : Nat) (P : List Byte) (pen : Point) :
    (fixedString f size P pen).2 =
      ⟨pen.x + ((f.cellWidth + f.gap) * size *
          (P.countP fun ch => decide (f.firstChar.toNat ≤ ch.toNat ∧ ch.toNat ≤ f.lastChar.toNat)) : Nat),
        pen.y⟩ := by
  induction P generalizing pen with
  | nil => simp [fixedString]
  | cons ch P ih =>
    simp only [fixedString, ih, fixedChar_pen, ← List.singleton_append (l := P), List.countP_append,
      Nat.mul_add, Nat.cast_add, Int.add_assoc]

/-- The advance of a character in the proportional font, 0 without a glyph (45_text R302). -/
def gfxAdvance (f : GfxFont) (ch : Byte) : Nat :=
  if f.first.toNat ≤ ch.toNat ∧ ch.toNat ≤ f.last.toNat then
    (f.glyphs[ch.toNat - f.first.toNat]?.map (·.xAdvance)).getD 0
  else 0

/-- The pen moves by the character's advance (45_text R302). -/
theorem gfxChar_pen (f : GfxFont) (pen : Point) (ch : Byte) :
    (gfxChar f pen ch).2 = ⟨pen.x + gfxAdvance f ch, pen.y⟩ := by
  by_cases h : f.first.toNat ≤ ch.toNat ∧ ch.toNat ≤ f.last.toNat
  · cases hg : f.glyphs[ch.toNat - f.first.toNat]? with
    | some g => simp [gfxChar_covered h hg, gfxAdvance, h, hg]
    | none =>
      have hnone : gfxGlyph f ch = none := by simp [gfxGlyph, hg]
      simp [gfxChar_of_gfxGlyph_none hnone, gfxAdvance, hg]
  · simp [gfxChar_of_gfxGlyph_none (gfxGlyph_uncovered h), gfxAdvance, h]

section GfxString

variable (f : GfxFont) (x : Int)

/-- 0x0A draws nothing and goes to the start of the next line (45_text R303). -/
theorem gfxString_newline (P : List Byte) (pen : Point) :
    gfxString f x (0x0A :: P) pen = gfxString f x P ⟨x, pen.y + f.yAdvance⟩ := if_pos rfl

/-- Any other byte is a character (45_text R303). -/
theorem gfxString_char {ch : Byte} (h : ch ≠ 0x0A) (P : List Byte) (pen : Point) :
    gfxString f x (ch :: P) pen =
      ((gfxChar f pen ch).1 ++ (gfxString f x P (gfxChar f pen ch).2).1,
       (gfxString f x P (gfxChar f pen ch).2).2) := if_neg h

theorem gfxString_append (P Q : List Byte) (pen : Point) :
    gfxString f x (P ++ Q) pen =
      ((gfxString f x P pen).1 ++ (gfxString f x Q (gfxString f x P pen).2).1,
       (gfxString f x Q (gfxString f x P pen).2).2) := by
  induction P generalizing pen with
  | nil => rfl
  | cons ch P ih =>
    by_cases hch : ch = 0x0A
    · subst hch
      rw [List.cons_append, gfxString_newline, gfxString_newline, ih]
    · simp only [List.cons_append, gfxString_char f x hch, ih, List.append_assoc]

/-- The pen goes down one line for each 0x0A (45_text R303). -/
theorem gfxString_pen_y (P : List Byte) (pen : Point) :
    (gfxString f x P pen).2.y = pen.y + (f.yAdvance * P.count 0x0A : Nat) := by
  induction P generalizing pen with
  | nil => simp [gfxString]
  | cons ch P ih =>
    by_cases hch : ch = 0x0A
    · subst hch
      rw [gfxString_newline, ih, List.count_cons_self]
      push_cast
      ring
    · rw [gfxString_char f x hch, ih, gfxChar_pen, List.count_cons_of_ne hch]

/-- Along a line the pen moves by the advances of the line's characters (45_text R303). -/
theorem gfxString_pen_x {P : List Byte} (h : 0x0A ∉ P) (pen : Point) :
    (gfxString f x P pen).2.x = pen.x + ((P.map (gfxAdvance f)).sum : Nat) := by
  induction P generalizing pen with
  | nil => simp [gfxString]
  | cons ch P ih =>
    obtain ⟨hch, hP⟩ := List.ne_and_not_mem_of_not_mem_cons h
    rw [gfxString_char f x (Ne.symm hch), ih hP, gfxChar_pen, List.map_cons, List.sum_cons, Nat.cast_add,
      Int.add_assoc]

/-- What follows a 0x0A is drawn from the start of the next line (45_text R303). -/
theorem gfxString_append_newline (P Q : List Byte) (pen : Point) :
    gfxString f x (P ++ 0x0A :: Q) pen =
      ((gfxString f x P pen).1 ++ (gfxString f x Q ⟨x, (gfxString f x P pen).2.y + f.yAdvance⟩).1,
       (gfxString f x Q ⟨x, (gfxString f x P pen).2.y + f.yAdvance⟩).2) := by
  rw [gfxString_append, gfxString_newline]

end GfxString

/-! ## The statements -/

/-- Settles O38: each text request draws its cells and writes the pen, and the fixed ones test the size
first. -/
theorem textRequestsPlotAndMoveThePen : Obligations.TextRequestsPlotAndMoveThePen := by
  intro x y size ch c P s d hd
  refine ⟨fun hfont => ?_, fun hfont =>
    ⟨exec_drawCharGfx_configured hd hfont x y ch c, exec_drawStringGfx_configured hd hfont x y c P⟩⟩
  rw [exec_drawCharFixed_configured hd hfont, exec_drawStringFixed_configured hd hfont]
  constructor
  · intro hsize
    rw [if_neg (by omega), if_neg (by omega)]
    exact ⟨rfl, rfl⟩
  · intro hsize
    rw [if_pos hsize, if_pos hsize]
    exact ⟨rfl, rfl⟩

/-- Settles O40: the blocks are those of the set font bits, and a set font bit is one of a byte in the font. -/
theorem fixedGlyphCells : Obligations.FixedGlyphCells := by
  intro f size pen ch _ g
  refine ⟨fun hfirst hlast => ⟨?_, fun pt => ?_, ?_⟩, fun hout => fixedChar_uncovered (by omega) size pen⟩
  · simp only [fixedChar_covered ⟨hfirst, hlast⟩, fontBit_eq]
    rfl
  · rw [mem_fixedChar ⟨hfirst, hlast⟩]
    simp only [fontBit_eq_true_iff, mem_blockCells]
    constructor
    · rintro ⟨i, hi, j, hj, ⟨b, hb, hbit⟩, dx, dy, hdx, hdy, rfl⟩
      exact ⟨i, j, dx, dy, b, hi, hj, hdx, hdy, hb, hbit, rfl⟩
    · rintro ⟨i, j, dx, dy, b, hi, hj, hdx, hdy, hb, hbit, rfl⟩
      exact ⟨i, hi, j, hj, ⟨b, hb, hbit⟩, dx, dy, hdx, hdy, rfl⟩
  · rw [fixedChar_covered ⟨hfirst, hlast⟩]

/-- Settles O41: the points are those of the set font bits, and a set font bit is one of a byte in the font. -/
theorem gfxGlyphCells : Obligations.GfxGlyphCells := by
  intro f pen ch hwf
  refine ⟨fun hfirst hlast => ?_, fun hout => gfxChar_of_gfxGlyph_none (gfxGlyph_uncovered (by omega)) pen⟩
  obtain ⟨g, hg⟩ := GfxFont.wf_exists_glyph hwf ⟨hfirst, hlast⟩
  refine ⟨g, hg, ?_, fun pt => ?_, ?_⟩
  · simp only [gfxChar_covered ⟨hfirst, hlast⟩ hg, fontBit_eq]
  · simp only [gfxChar_covered ⟨hfirst, hlast⟩ hg, List.mem_flatMap, List.mem_range, List.mem_ite_nil_right,
      List.mem_singleton, fontBit_eq_true_iff]
    constructor
    · rintro ⟨j, hj, i, hi, ⟨b, hb, hbit⟩, rfl⟩
      exact ⟨i, j, b, hi, hj, hb, hbit, rfl⟩
    · rintro ⟨i, j, b, hi, hj, hb, hbit, rfl⟩
      exact ⟨j, hj, i, hi, ⟨b, hb, hbit⟩, rfl⟩
  · rw [gfxChar_covered ⟨hfirst, hlast⟩ hg]

/-- Settles O42: by induction along the string, with the pen that each character leaves. -/
theorem stringsMoveThePen : Obligations.StringsMoveThePen := by
  constructor
  · intro f size P Q ch pen
    exact ⟨rfl, fixedString_singleton f size ch pen, fixedString_append f size P Q pen,
      fixedString_pen f size P pen⟩
  · intro f x P Q ch pen adv
    refine ⟨rfl, gfxString_newline f x [] pen, fun hch => ?_, gfxString_append f x P Q pen,
      congrArg Prod.fst (gfxString_append_newline f x P Q pen), gfxString_pen_y f x P pen,
      fun hP => gfxString_pen_x f x hP pen, fun hQ => ?_⟩
    · rw [gfxString_char f x hch]
      simp only [gfxString, List.append_nil]
    · rw [gfxString_append_newline]
      exact gfxString_pen_x f x hQ _

end Sys2Proof.Machine
end

section
/-! SUPPORT. Exceptions (60_exceptions): what a request can do to the log, the range errors of the requests that
draw no text, and the fault entry of the decoder. -/

namespace Sys2Proof.Machine

/-! ## RESERVED -/

theorem decode_request_reserved {q : BitVec 84} (h : q.setWidth 4 = 0#4) (P : List Byte) :
    decode (.request q P) = .ok .reserved := by
  obtain ⟨op, a0, a1, a2, a3, a4, rfl⟩ := exists_requestWord q
  obtain rfl : op = 0#4 := (requestWord_setWidth ..).symm.trans h
  exact decode_reserved ..

theorem exec_reserved (s : State) : exec .reserved s = .next (s.logged illegalRequest 0x0) := rfl

/-- Settles O14: opcode 0 selects RESERVED, whose meaning is one record. -/
theorem reservedRequestDropped : Obligations.ReservedRequestDropped :=
  ⟨fun _ P h => decode_request_reserved h P, exec_reserved⟩

/-! ## What leaves the log -/

theorem State.plotted_log (s : State) (d : DeviceState) (cells : List Point) (c : Color) :
    (s.plotted d cells c).enc.log = s.enc.log := by
  simp only [State.plotted]
  split
  · rfl
  · exact State.sent_log ..

theorem State.emitData_log (w : Word16) (s : State) : (s.emitData w).enc.log = s.enc.log := by
  rw [State.emitData_eq]

theorem State.emitDataTimes_log (n : Nat) (w : Word16) (s : State) :
    (s.emitDataTimes n w).enc.log = s.enc.log := by
  induction n generalizing s with
  | zero => rfl
  | succ n ih => exact (ih _).trans (State.emitData_log w s)

theorem State.writeReg_log (r : RegAddr) (v : Word16) (s : State) : (s.writeReg r v).enc.log = s.enc.log := by
  rw [State.writeReg_eq]

section Configured

variable {s : State} {d : DeviceState} (hd : s.enc.dev = some d)
include hd

theorem State.setWindowCore_log (w : Window Int) : (s.setWindowCore w).enc.log = s.enc.log := by
  rw [State.setWindowCore_eq hd, State.sent_log]

theorem State.plotCells_log (cells : List Point) (c : Color) : (s.plotCells cells c).enc.log = s.enc.log := by
  rw [State.plotCells_eq cells c hd, State.plotted_log]

theorem State.drawText_log (drawn : List Point × Point) (c : Color) :
    (s.drawText drawn c).enc.log = s.enc.log :=
  State.plotCells_log hd drawn.1 c

end Configured

/-! ## What a request logs -/

/-- `t` has the log of `s`, or is `s` after its request has been dropped with RANGE_ERROR (60_exceptions R322,
R326). -/
def State.KeepsLogOrDrops (s : State) (op : BitVec 4) (t : State) : Prop :=
  t.enc.log = s.enc.log ∨ t = s.logged rangeError op

theorem exec_init_outOfRange {s : State} {w h rot : Int} (hin : ¬ initInRange s.par w h rot = true) :
    exec (.init w h rot) s = .next (s.logged rangeError 0x1) := congrArg Host.Outcome.next (if_neg hin)

/-- The range check of INIT is all that can log (41_encoder_config R171). -/
theorem exec_init_keepsLogOrDrops {w h rot : Int} {s t : State} (hexec : exec (.init w h rot) s = .next t) :
    s.KeepsLogOrDrops 0x1 t := by
  by_cases hin : initInRange s.par w h rot = true
  · obtain rfl := Host.Outcome.next.inj ((execInit_accepted hin).symm.trans hexec)
    exact .inl (State.sent_log ..)
  · exact .inr (Host.Outcome.next.inj (hexec.symm.trans (exec_init_outOfRange hin)))

/-- The request is a body behind the common prologue (41_encoder_config R170), refused before it under an
ill-formed font (log 15); the body keeps the log or is a drop. -/
def RunsBehindPrologue (i : Instr) (op : BitVec 4) (s : State) : Prop :=
  ∃ body : DeviceState → State,
    (exec i s = if fontReady s.par i then .next (s.withDevice op body) else .refused .illFormedFont) ∧
      ∀ d, s.enc.dev = some d → s.KeepsLogOrDrops op (body d)

/-- Every request but RESERVED and INIT starts with the prologue (41_encoder_config R170). -/
theorem exec_runsBehindPrologue {i : Instr} {op : BitVec 4} (hop : opcodeOf i = some op) (hle : 2 ≤ op.toNat)
    (s : State) : RunsBehindPrologue i op s := by
  have hdrop : ∀ op, s.KeepsLogOrDrops op (s.drop rangeError op) := fun _ => .inr rfl
  cases i <;> cases hop
  case reserved.refl | init.refl => exact absurd hle (by decide)
  case setWindow.refl => exact ⟨_, rfl, fun d hd => .inl (State.setWindowCore_log hd _)⟩
  case setRotation.refl =>
    exact ⟨_, rfl, fun d _ => iteInduction (fun _ => hdrop _) fun _ =>
      iteInduction (fun _ => .inl rfl) fun _ => .inl (State.writeReg_log ..)⟩
  case setColorOrder.refl =>
    exact ⟨_, rfl, fun d _ => iteInduction (fun _ => .inl rfl) fun _ => .inl (State.writeReg_log ..)⟩
  case writeData16.refl w =>
    refine ⟨_, rfl, fun d hd => .inl ?_⟩
    rw [State.reopenGram_emitData hd, State.sent_log]
  case drawPixel.refl =>
    exact ⟨_, rfl, fun d hd =>
      iteInduction (fun _ => .inl (State.plotCells_log hd [_] _)) fun _ => hdrop _⟩
  case fillRect.refl x y w h c =>
    refine ⟨_, rfl, fun d hd => ?_⟩
    cases d.clipRect x y w h with
    | none => exact hdrop _
    | some win => exact .inl ((State.emitDataTimes_log ..).trans (State.setWindowCore_log hd win))
  case drawLine.refl => exact ⟨_, rfl, fun d hd => .inl (State.plotCells_log hd _ _)⟩
  case drawRect.refl =>
    exact ⟨_, rfl, fun d hd => iteInduction (fun _ => hdrop _) fun _ => .inl (State.plotCells_log hd _ _)⟩
  case drawCircle.refl | fillCircle.refl =>
    exact ⟨_, rfl, fun d hd => iteInduction (fun _ => .inl (State.plotCells_log hd _ _)) fun _ => hdrop _⟩
  case drawCharFixed.refl | drawStringFixed.refl =>
    exact ⟨_, rfl, fun d hd => iteInduction (fun _ => hdrop _) fun _ => .inl (State.drawText_log hd _ _)⟩
  case drawCharGfx.refl | drawStringGfx.refl =>
    exact ⟨_, rfl, fun d hd => .inl (State.drawText_log hd _ _)⟩

/-- The two opcodes below those that start with the prologue. -/
theorem reserved_or_init_of_opcode_lt {i : Instr} {op : BitVec 4} (hop : opcodeOf i = some op)
    (hlt : op.toNat < 2) : i = .reserved ∧ op = 0x0 ∨ ∃ w h rot, i = .init w h rot ∧ op = 0x1 := by
  cases i with
  | reserved => exact .inl ⟨rfl, (Option.some.inj hop).symm⟩
  | init w h rot => exact .inr ⟨w, h, rot, rfl, (Option.some.inj hop).symm⟩
  | cmd | data | eventCmd | eventData | eventDelay | eventReset => cases hop
  | _ =>
    obtain rfl := Option.some.inj hop
    exact absurd hlt (by decide)

theorem RunsBehindPrologue.unconfigured {i : Instr} {op : BitVec 4} {s : State} (h : RunsBehindPrologue i op s)
    (hfont : fontReady s.par i = true) (hdev : s.enc.dev = none) :
    exec i s = .next (s.logged configError op) := by
  obtain ⟨body, hexec, -⟩ := h
  rw [hexec, if_pos hfont, State.withDevice_none op body hdev]

/-- A request behind the prologue logs nothing, or is dropped by the prologue or by its body. -/
theorem RunsBehindPrologue.log {i : Instr} {op : BitVec 4} {s t : State} (h : RunsBehindPrologue i op s)
    (hexec : exec i s = .next t) : s.KeepsLogOrDrops op t ∨ t = s.logged configError op := by
  obtain ⟨body, hbody, hkeeps⟩ := h
  rw [hbody] at hexec
  split at hexec
  · obtain rfl := Host.Outcome.next.inj hexec
    cases hdev : s.enc.dev with
    | none => exact .inr (State.withDevice_none op body hdev)
    | some d => exact .inl (State.withDevice_some op body hdev ▸ hkeeps d hdev)
  · cases hexec

theorem State.logged_log_drop (s : State) (code : BitVec 8) (op : BitVec 4) :
    (s.logged code op).enc.log.drop s.enc.log.length = [⟨code, op⟩] := List.drop_left

/-- No record with code 0x01 is among those a kept log or a range error appends. -/
theorem State.KeepsLogOrDrops.no_configError {s t : State} {op : BitVec 4} (h : s.KeepsLogOrDrops op t) :
    ∀ rec ∈ t.enc.log.drop s.enc.log.length, rec.code ≠ 0x01 := by
  rcases h with hlog | rfl
  · simp [hlog]
  · simp [State.logged_log_drop, rangeError]

/-- Settles O15: the prologue drops the requests behind it; RESERVED and INIT have none. -/
theorem unconfiguredRequestDropped : Obligations.UnconfiguredRequestDropped := by
  constructor
  · intro i op s hop hle hfont hdev
    exact (exec_runsBehindPrologue hop hle s).unconfigured hfont hdev
  · intro i op s t hop hlt hexec
    rcases reserved_or_init_of_opcode_lt hop hlt with ⟨rfl, rfl⟩ | ⟨w, h, rot, rfl, rfl⟩
    · obtain rfl := Host.Outcome.next.inj ((exec_reserved s).symm.trans hexec)
      simp [State.logged_log_drop, illegalRequest]
    · exact (exec_init_keepsLogOrDrops hexec).no_configError

/-- Settles O53: RESERVED always logs, INIT by its range check, every other request by the prologue or the range
check of its body, and each log is a drop. -/
theorem loggingRequestsChangeNothingElse : Obligations.LoggingRequestsChangeNothingElse := by
  intro i op s t hop hexec
  have hcodes : s.KeepsLogOrDrops op t → t.enc.log = s.enc.log ∨
      ∃ code, (code = 0x01 ∨ code = 0x02 ∨ code = 0x03) ∧ t = s.logged code op :=
    Or.imp_right fun hdropped => ⟨rangeError, .inr (.inl rfl), hdropped⟩
  by_cases hlt : op.toNat < 2
  · rcases reserved_or_init_of_opcode_lt hop hlt with ⟨rfl, rfl⟩ | ⟨w, h, rot, rfl, rfl⟩
    · obtain rfl := Host.Outcome.next.inj ((exec_reserved s).symm.trans hexec)
      exact .inr ⟨illegalRequest, .inr (.inr rfl), rfl⟩
    · exact hcodes (exec_init_keepsLogOrDrops hexec)
  · rcases (exec_runsBehindPrologue hop (not_lt.mp hlt) s).log hexec with hkeeps | hdropped
    · exact hcodes hkeeps
    · exact .inr ⟨configError, .inl rfl, hdropped⟩

/-! ## Range errors -/

/-- A rectangle with no cell of its own or none on the device is clipped to nothing (42_raster_primitives
R205). -/
theorem DeviceState.clipRect_eq_none {d : DeviceState} {x y w h : Int}
    (hempty : w ≤ 0 ∨ h ≤ 0 ∨ min (x + w - 1) (d.width - 1) < max x 0 ∨
      min (y + h - 1) (d.height - 1) < max y 0) : d.clipRect x y w h = none := by
  refine Option.eq_none_iff_forall_ne_some.mpr fun c hc => ?_
  obtain ⟨hsize, rfl, hx, hy⟩ := DeviceState.clipRect_eq_some_iff.mp hc
  simp only at hx hy
  omega

/-- Settles O17: each operand out of range fails the one check of its request. -/
theorem rangeErrorsDropped : Obligations.RangeErrorsDropped := by
  intro s d
  refine ⟨fun W H rot hout => exec_init_outOfRange ?_, fun hd => ⟨fun rot hout => ?_, fun x y c hout => ?_,
    fun x y w h c hout => ?_, fun x y w h c hout => ?_, fun x y r c hout => ?_⟩⟩
  · rw [initInRange_iff]
    omega
  · refine exec_setRotation_outOfRange hd ?_
    rw [← Bool.not_eq_true, rotationInRange_iff]
    omega
  · have hoff : ¬ d.contains x y = true := by
      rw [DeviceState.contains_iff]
      omega
    rw [exec_drawPixel_configured hd, if_neg hoff]
    rfl
  · exact exec_fillRect_empty hd c (DeviceState.clipRect_eq_none hout)
  · rw [exec_drawRect_configured hd, if_pos hout]
    rfl
  · have hrejected : ¬ d.circleAccept x y r = true := by
      rw [DeviceState.circleAccept_iff]
      omega
    rw [exec_drawCircle_configured hd, exec_fillCircle_configured hd, if_neg hrejected, if_neg hrejected]
    exact ⟨rfl, rfl⟩

/-! ## The fault entry -/

/-- What an input answers from a decoder without a fault: the fault it signals is the one recorded, in phase
Faulted (60_exceptions R328). -/
def FaultRecorded (answer : Dec × Option ProtocolError) : Prop :=
  answer.1.err = answer.2 ∧ (answer.2.isSome = true → answer.1.phase = .faulted)

theorem FaultRecorded.raise (e : ProtocolError) (d : Dec) : FaultRecorded (d.raise e) := ⟨rfl, fun _ => rfl⟩

theorem FaultRecorded.quiet {d : Dec} (herr : d.err = none) : FaultRecorded (d, none) := ⟨herr, nofun⟩

theorem Dec.registerWord_faultRecorded (p : Params) (r : RegAddr) (w : Word16) {d : Dec} (herr : d.err = none) :
    FaultRecorded (d.registerWord p r w) := by
  unfold Dec.registerWord
  split_ifs
  · rcases d.gramWrite_cases p w with ⟨-, h⟩ | ⟨-, -, h⟩ | ⟨-, -, h⟩ <;> rw [h]
    · exact .raise ..
    · exact .raise ..
    · exact .quiet herr
  all_goals exact .quiet herr

theorem Dec.dataWord_faultRecorded (p : Params) (w : Word16) {d : Dec} (herr : d.err = none) :
    FaultRecorded (d.dataWord p w) := by
  unfold Dec.dataWord
  split
  · exact .raise ..
  · exact Dec.registerWord_faultRecorded p _ w herr

/-- The first byte that completes a faulting word ends the strobe with that fault (44_decoder R257). -/
theorem Dec.dataBytes_faultRecorded (p : Params) (bytes : List Byte) {d : Dec} (herr : d.err = none) :
    FaultRecorded (Dec.dataBytes p bytes d) := by
  induction bytes generalizing d with
  | nil => exact .quiet herr
  | cons b bytes ih =>
    unfold Dec.dataBytes
    cases d.partialByte with
    | none => exact ih herr
    | some high =>
      have hword := Dec.dataWord_faultRecorded p (high ++ b)
        (d := { d with partialByte := none, phase := .commandLatched }) herr
      simp only
      generalize Dec.dataWord p (high ++ b) _ = answer at hword ⊢
      obtain ⟨d', _ | e⟩ := answer
      · exact ih hword.1
      · exact hword

/-- Everything a pin action can do to a decoder without a fault: nothing is signalled and no fault recorded; a
fault is raised and nothing else changes; or a data strobe is taken byte by byte (44_decoder R251 to R258). -/
theorem Dec.pin_cases (p : Params) (a : PinAction) {d : Dec} (herr : d.err = none) :
    (∃ d', d.pin p a = (d', none) ∧ d'.err = none) ∨ (∃ e, d.pin p a = d.raise e) ∨
      ∃ bytes, a = .writeBytes bytes ∧ d.TakesData := by
  obtain ⟨hmode, hchip, hdelay, hreset⟩ := Dec.pin_lines p herr
  cases a with
  | selectMode m => exact .inl ⟨_, hmode m, herr⟩
  | selectChip active => exact .inl ⟨_, hchip active, herr⟩
  | delay ms => exact .inl ⟨_, hdelay ms, herr⟩
  | resetPulse l w => exact .inl ⟨_, hreset l w, (Dec.resetPulse_err p d).trans herr⟩
  | writeBytes bytes =>
    cases hcs : d.cs with
    | false => exact .inl ⟨_, Dec.pin_strobe_unselected p bytes herr hcs, herr⟩
    | true =>
      cases hrs : d.rs with
      | none => exact .inr (.inl ⟨_, Dec.pin_strobe_modeUnset p bytes herr hcs hrs⟩)
      | some m =>
        cases m with
        | cmd =>
          rw [Dec.pin_strobe_cmd p bytes herr hcs hrs]
          rcases d.commandStrobe_cases p bytes with ⟨r, -, -, h⟩ | ⟨r, -, -, h⟩ | ⟨-, h⟩
          · exact .inl ⟨_, h, herr⟩
          · exact .inr (.inl ⟨_, h⟩)
          · exact .inr (.inl ⟨_, h⟩)
        | data =>
          cases hlatched : d.latched with
          | none => exact .inr (.inl ⟨_, Dec.pin_strobe_dataUnlatched p bytes herr hcs hrs hlatched⟩)
          | some r => exact .inr (.inr ⟨bytes, rfl, herr, hcs, hrs, by rw [hlatched]; rfl⟩)

theorem Dec.pin_faultRecorded (p : Params) (a : PinAction) {d : Dec} (herr : d.err = none) :
    FaultRecorded (d.pin p a) := by
  rcases Dec.pin_cases p a herr with ⟨d', hquiet, herr'⟩ | ⟨e, hraised⟩ | ⟨bytes, rfl, htakes⟩
  · exact hquiet ▸ .quiet herr'
  · exact hraised ▸ .raise e d
  · exact htakes.pin_writeBytes p bytes ▸ Dec.dataBytes_faultRecorded p bytes herr

/-- Outside data mode a signalled fault is all that a pin action does (60_exceptions R328). -/
theorem Dec.pin_eq_raise {p : Params} {a : PinAction} {d : Dec} {e : ProtocolError} (herr : d.err = none)
    (hsignal : (d.pin p a).2 = some e) (hmode : d.rs ≠ some .data) : d.pin p a = d.raise e := by
  rcases Dec.pin_cases p a herr with ⟨d', hquiet, -⟩ | ⟨e', hraised⟩ | ⟨bytes, -, htakes⟩
  · rw [hquiet] at hsignal
    cases hsignal
  · rw [hraised] at hsignal
    obtain rfl := Option.some.inj hsignal
    exact hraised
  · obtain ⟨-, -, hdata, -⟩ := htakes
    exact absurd hdata hmode

/-- Settles O51: the fault signalled is the one recorded, and outside data mode the entry is all. -/
theorem faultEntryRecordsAndSignals : Obligations.FaultEntryRecordsAndSignals := by
  intro p a d herr
  obtain ⟨hrecorded, hphase⟩ := Dec.pin_faultRecorded p a herr
  refine ⟨fun e hsignal => ⟨hrecorded.trans hsignal, hphase (by rw [hsignal]; rfl)⟩,
    hrecorded.trans, fun e hsignal hmode => ?_⟩
  rw [Dec.pin_eq_raise herr hsignal hmode]
  rfl

end Sys2Proof.Machine
end
